-- ==== Sys2Proof/Word.lean ====
section
/-! DEFINITION. The words the WZ416 itself speaks of: octets, tags, sets of items, and the small
finite names that commands carry (links, reference ports). -/

namespace Sys2Proof

/-- An octet of a link frame or a time message (R44, R207). -/
abbrev Octet := BitVec 8

/-- The TAG of a request, copied unchanged into its response (R209). -/
abbrev Tag := BitVec 16

/-- A set of items 0..24: bit n stands for item n (R190, R209). -/
abbrev ItemSet := BitVec 25

/-- A set of conditions, items 0..12 (R188, R195). -/
abbrev CondSet := BitVec 13

/-- A set of counter ids 0..11 (R200). -/
abbrev CounterSet := BitVec 12

/-- The two control links (R207). -/
inductive Link where
  | a
  | b
  deriving DecidableEq, Repr

/-- The link that is not `l`. -/
def Link.other : Link → Link
  | .a => .b
  | .b => .a

/-- The two reference ports (R43). -/
inductive Port where
  | p1
  | p2
  deriving DecidableEq, Repr

/-- The port that is not `p`. -/
def Port.other : Port → Port
  | .p1 => .p2
  | .p2 => .p1

end Sys2Proof
end

