-- ==== Sys2Proof/Syntax.lean ====
section
/-! DEFINITION. The commands of the WZ416: one constructor for each row of spec/opcode_table.json.

Operands. A request carries the link it came on, its TAG and its arguments in the widths of the
catalogue (R215). An event on a line carries `dt`, the cycles of the oscillator in use that have
passed since the command before it (assumption log entry 1). A timer's expiry carries no time: it
falls at the instant at which that timer runs out. -/

namespace Sys2Proof

inductive Instr where
  -- Resets (R217..R220)
  /-- POR_N falls to 0. -/
  | powerOnResetAssert (dt : Nat)
  /-- POR_N rises to 1. -/
  | powerOnReset (dt : Nat)
  /-- RESTART_N falls from 1 to 0. -/
  | restartNFall (dt : Nat)
  /-- The awaited restart is made: the last octet of the RESTART OK response has gone out. -/
  | awaitedRestart (dt : Nat)
  /-- A break of 2 octet times on the link's RX line. -/
  | linkBreak (l : Link) (dt : Nat)
  -- The control links (R207..R211)
  /-- The octets received on the link since its parser last acted; the last completes a frame. -/
  | linkFrameReceived (l : Link) (octets : List Octet) (dt : Nat)
  /-- The 10 ms gap timer of the link's parser runs out. -/
  | linkGapExpiry (l : Link)
  /-- An octet with its stop bit at 0 is received on the link. -/
  | linkFramingError (l : Link) (dt : Nat)
  /-- The last octet of the oldest response in the link's output has been sent. -/
  | responseSent (l : Link) (dt : Nat)
  -- Requests to the conditions block (Chapter 10)
  | readStatus (l : Link) (tag : Tag)
  | setAlertMask (l : Link) (tag : Tag) (set : BitVec 32)
  | setFaultMask (l : Link) (tag : Tag) (set : BitVec 32)
  | readCounters (l : Link) (tag : Tag) (part : Octet)
  | tickNow (l : Link) (tag : Tag)
  | setThreshold (l : Link) (tag : Tag) (id : Octet) (value : BitVec 32)
  -- Requests to the timebase (Chapter 2)
  | readTime (l : Link) (tag : Tag)
  | stepTime (l : Link) (tag : Tag) (day : BitVec 16) (second : BitVec 24)
  -- Requests to the references (Chapter 3)
  | selectReference (l : Link) (tag : Tag) (choice : Octet)
  | setRefEnable (l : Link) (tag : Tag) (port : Octet) (setting : Octet)
  | setSelectMode (l : Link) (tag : Tag) (mode : Octet)
  | readReferences (l : Link) (tag : Tag)
  -- Requests to the synthesizer (Chapter 7)
  | setSynth (l : Link) (tag : Tag) (n k : BitVec 16) (p b : Octet)
  | synthOn (l : Link) (tag : Tag)
  | synthOff (l : Link) (tag : Tag)
  | readSynth (l : Link) (tag : Tag)
  -- Requests to the keyer (Chapter 6)
  | setMode (l : Link) (tag : Tag) (mode : Octet)
  | killCarrier (l : Link) (tag : Tag)
  | setHold (l : Link) (tag : Tag) (setting : Octet)
  | maintenance (l : Link) (tag : Tag) (endDay endMinute : BitVec 16)
  | readKeyer (l : Link) (tag : Tag) (part : Octet)
  -- Requests to the change schedule (Chapter 4)
  | postChange (l : Link) (tag : Tag) (kind : Octet) (day minute : BitVec 16) (zone : Octet)
      (lead : BitVec 16)
  | withdrawChange (l : Link) (tag : Tag) (number : Octet)
  | readSchedule (l : Link) (tag : Tag) (position : Octet)
  | readRetired (l : Link) (tag : Tag) (position : Octet)
  | setZone (l : Link) (tag : Tag) (index : Octet) (offset : Octet)
  | selectZone (l : Link) (tag : Tag) (index : Octet)
  -- Requests to the composer (Chapter 5)
  | writeNotice (l : Link) (tag : Tag) (slot : Octet) (text : List Octet)
  | selectNotice (l : Link) (tag : Tag) (slot : Octet)
  | readNotice (l : Link) (tag : Tag) (part : Octet)
  -- Requests to the off-air monitor (Chapter 9)
  | readMonitor (l : Link) (tag : Tag) (part : Octet)
  | injectMonitorError (l : Link) (tag : Tag)
  -- Requests to the amplifier bus (Chapter 8)
  | moduleRead (l : Link) (tag : Tag) (address register : Octet)
  | moduleWrite (l : Link) (tag : Tag) (address register : Octet) (value : BitVec 16)
  | readModules (l : Link) (tag : Tag) (part : Octet)
  | setScan (l : Link) (tag : Tag) (first last min : Octet)
  -- Parameters and restart (Chapter 11)
  | setParam (l : Link) (tag : Tag) (id : Octet) (value : BitVec 16)
  | readParam (l : Link) (tag : Tag) (id : Octet)
  | restart (l : Link) (tag : Tag)
  -- Events of the timebase and the keyer (Chapters 1, 2 and 6)
  /-- The second count reaches its length. -/
  | secondEdge
  /-- The cycle count of a mark interval runs out. -/
  | markIntervalEnd
  /-- No FREQ_IN edge for 1 µs; `absentFor` is how many cycles FREQ_IN then stays absent. -/
  | freqInAbsent (absentFor : Nat) (dt : Nat)
  /-- The presence time reaches 10 s. -/
  | freqInReturn
  /-- A rising edge on REFn_PULSE. -/
  | refPulse (p : Port) (dt : Nat)
  /-- An edge has been held 5,000,000 cycles past its length. -/
  | phaseStepHoldExpiry
  /-- The octets received on REFn_MSG since its receiver last acted; the last completes a message. -/
  | refMessage (p : Port) (octets : List Octet) (dt : Nat)
  /-- More than 2 ms have passed since an octet of the message in progress. -/
  | refMsgGapExpiry (p : Port)
  /-- An octet with a framing error is received on REFn_MSG. -/
  | refMsgFramingError (p : Port) (dt : Nat)
  /-- The pulse watch of the port runs out. -/
  | pulseWatchExpiry (p : Port)
  /-- A comparison period ends with a phase difference of `num / den` of a comparison period. -/
  | comparisonPeriodEnd (num den : Nat)
  /-- TX_READY changes to `level`. -/
  | txReadyChange (level : Bool) (dt : Nat)
  -- The amplifier bus (Chapter 8)
  /-- The sending of the attempt under way ends. -/
  | attemptSent (dt : Nat)
  /-- A valid answer of the addressed module; `value` is the register's value, for a read. -/
  | moduleAnswer (value : BitVec 16) (dt : Nat)
  /-- 2 ms have passed with no valid answer. -/
  | answerWindowExpiry
  -- The off-air monitor (Chapter 9)
  | monInRise (dt : Nat)
  | monInFall (dt : Nat)
  /-- The line has been 0 for 150 ms and the open mark closes. -/
  | markQuietClose
  /-- 1 s has passed since the mark opened. -/
  | markLongClose
  /-- The 62 s frame timer runs out. -/
  | frameTimerExpiry
  /-- An octet received in LENGTH that is not 3..60. -/
  | lengthOctetInvalid (l : Link) (octet : Octet) (dt : Nat)
  deriving DecidableEq, Repr

end Sys2Proof
end

