-- ==== Sys2Proof/Decode.lean ====
section
/-! DEFINITION. The command that a word spells by the table's bits. The WZ416 is a block: no row of
spec/opcode_table.json gives a bit (each row's "fields" is empty and none has "fixed"), so no word
spells a command. The octets that do arrive on the links are read by the machine itself (R207..R215,
Machine/Links.lean). -/

namespace Sys2Proof

/-- No row of the table gives bits, so every word spells none. -/
def decodeTableWord (_nbits _w : Nat) : Option Instr := none

end Sys2Proof
end

