-- ==== Sys2Proof/Machine/State.lean ====
section
/-! DEFINITION. The state of the WZ416, block by block, as plain data, and its value after a
power-on reset. Instants are counted in cycles of the oscillator in use since the power-on start
(`State.now`); a timer is held as the instant at which it runs out. -/

namespace Sys2Proof.Machine

/-! ## The broadcast code -/

/-- A symbol, as sent or as heard (R4, R169). A frame record never holds `invalid`. -/
inductive Symbol where
  | zero
  | one
  | half
  | minute
  | invalid
  deriving DecidableEq, Repr

/-- The leap code of a frame record, and the leap warning of a label (R44, R96, R100). -/
inductive LeapCode where
  | none
  | insert
  | delete
  deriving DecidableEq, Repr

/-- A frame record (R100). -/
structure FrameRecord where
  day : Nat
  minute : Nat
  civDay : Nat
  civMinute : Nat
  length : Nat
  syms : List Symbol
  octIdx : Int
  low : Bool
  leap : LeapCode
  zoneAnn : Bool
  zone : Nat
  nextZone : Nat
  quality : Nat
  crc : BitVec 4
  announcing : List Nat
  deriving DecidableEq, Repr

/-! ## Parameters (R216) -/

/-- The seventeen parameters, in order of id. -/
structure Params where
  qualWindow : Nat
  qualCount : Nat
  disqCount : Nat
  refAgree : Nat
  slew : Nat
  fullLevel : Nat
  depth : Nat
  tickPeriod : Nat
  lofSet : Nat
  lofClear : Nat
  ampRetries : Nat
  minModules : Nat
  arbWeightA : Nat
  arbWeightB : Nat
  carryOver : Bool
  monitorEnable : Bool
  scanEnable : Bool
  deriving DecidableEq, Repr

/-! ## Timebase (Chapter 2) -/

inductive Discipline where
  | free
  | locked
  | holdover
  deriving DecidableEq, Repr

/-- The oscillator in use: FREQ_IN or the standby oscillator (R19). -/
inductive Source where
  | station
  | standby
  deriving DecidableEq, Repr

/-- A handed-over minute length and the linear minute number it was handed over for (R22). -/
structure Handed where
  length : Nat
  minute : Nat
  deriving DecidableEq, Repr

structure Timebase where
  /-- Time state: SET or UNSET (R22). -/
  timeSet : Bool
  /-- Base day D and second of day S; no meaning while UNSET (R22). -/
  day : Nat
  sec : Nat
  minLen : Nat
  handed : Option Handed
  freeSec : Nat
  freeMin : Nat
  disc : Discipline
  holdAge : Nat
  source : Source
  /-- Trim T, trim valid, trim position k (R26, R27, R32). -/
  trim : Int
  trimValid : Bool
  k : Nat
  /-- The learning window: how many seconds it holds and the sum of their corrections (R32). -/
  winCount : Nat
  winSum : Int
  /-- The second in progress was begun in LOCKED and may enter the window (R32). -/
  begunLocked : Bool
  /-- The correction applied to the second in progress, and whether it was limited (R29). -/
  corr : Int
  slewing : Bool
  /-- The correction applied to the latest second that had one (R40). -/
  lastCorr : Int
  lastSlew : Bool
  /-- The instant of the latest second edge (of the start of counting, before the first). -/
  edgeAt : Nat
  /-- A second edge has been made since the start of counting (R41). -/
  edgeMade : Bool
  /-- The length of the second in progress (R26, R29). -/
  length : Int
  /-- A phase step waits (R33). -/
  stepWaiting : Bool
  /-- The port that time acquisition waits on (R36). -/
  acq : Option Port
  /-- The day and second of a STEP_TIME not yet applied (R38). -/
  pendingStep : Option (Nat × Nat)
  deriving DecidableEq, Repr

/-! ## Time references (Chapter 3) -/

inductive PortState where
  | disabled
  | absent
  | candidate
  | qualified
  deriving DecidableEq, Repr

structure Label where
  day : Nat
  sec : Nat
  leap : LeapCode
  deriving DecidableEq, Repr

/-- The interval part of a pulse's evaluation (R47). -/
inductive Interval where
  | none
  | regular
  | irregular
  deriving DecidableEq, Repr

/-- A pulse whose evaluation completes at the next edge (R28, R47). -/
structure OpenPulse where
  at_ : Nat
  interval : Interval
  label : Option Label
  deriving DecidableEq, Repr

structure RefPort where
  enable : Bool
  st : PortState
  goodRun : Nat
  irregRun : Nat
  unlabRun : Nat
  missed : Nat
  /-- The instant at which the pulse watch runs out; absent while it is stopped (R46). -/
  watch : Option Nat
  lastPulse : Option Nat
  waiting : Option Label
  last : Option Label
  lastOffset : Int
  leapDis : Bool
  openPulses : List OpenPulse
  /-- The offset of the port's pulse paired with the latest edge, once known (R58). -/
  edgeOffset : Option Int
  /-- The octets of the message in progress on REFn_MSG (R44). -/
  rx : List Octet
  /-- A pulse has arrived during the message in progress (R45). -/
  rxLate : Bool
  rxGapAt : Nat
  deriving DecidableEq, Repr

inductive SelectMode where
  | auto
  | manual
  deriving DecidableEq, Repr

structure Selector where
  mode : SelectMode
  selection : Option Port
  manual : Option Port
  /-- The latest difference judged (R58). -/
  diff : Option Nat
  /-- REF_DISAGREE (R58). -/
  disagree : Bool
  deriving DecidableEq, Repr

/-! ## Carrier synthesizer (Chapter 7) -/

inductive SynthState where
  | off
  | acquiring
  | locked
  deriving DecidableEq, Repr

inductive Judgement where
  | none
  | within
  | outside
  deriving DecidableEq, Repr

structure Synth where
  n : Nat
  k : Nat
  p : Nat
  b : Nat
  st : SynthState
  inRun : Nat
  outRun : Nat
  last : Judgement
  /-- The instant at which the comparison period in progress began (R142). -/
  periodAt : Nat
  deriving DecidableEq, Repr

/-! ## Change schedule (Chapter 4) -/

inductive ChangeKind where
  | leapInsert
  | leapDelete
  | zoneChange
  deriving DecidableEq, Repr

/-- A change entry (R63). The effective instant E is `eDay`, `eMinute`. -/
structure Entry where
  number : Nat
  kind : ChangeKind
  eDay : Nat
  eMinute : Nat
  newZone : Option Nat
  lead : Nat
  origin : Link
  postedDay : Nat
  postedSec : Nat
  announcing : Bool
  /-- Altered minute composed; present for leaps. -/
  altered : Option Bool
  deriving DecidableEq, Repr

inductive RetireOutcome where
  | applied
  | appliedLate
  | missed
  | withdrawn
  deriving DecidableEq, Repr

/-- A record of the retired list (R82). -/
structure Retired where
  number : Nat
  kind : ChangeKind
  eDay : Nat
  eMinute : Nat
  newZone : Option Nat
  origin : Link
  outcome : RetireOutcome
  withdrawnBy : Option Link
  atDay : Nat
  atSec : Nat
  deriving DecidableEq, Repr

structure Schedule where
  entries : List Entry
  retired : List Retired
  nextNum : Nat
  version : Nat
  offsets : Vector Int 4
  zone : Nat
  pendingZone : Option Nat
  deriving DecidableEq, Repr

/-! ## Frame composer (Chapter 5) -/

inductive Slot where
  | s0
  | s1
  deriving DecidableEq, Repr

structure Composer where
  text0 : List Octet
  text1 : List Octet
  active : Slot
  pendingSlot : Option Slot
  /-- The notice position: octet index, -1 for the start octet, and nibble (R104). -/
  octIdx : Int
  low : Bool
  /-- The next-frame slot (R102). -/
  next : Option FrameRecord
  deriving DecidableEq, Repr

/-! ## Keyer (Chapter 6) -/

inductive Mode where
  | offAir
  | carrierOnly
  | timeCode
  | testPattern
  deriving DecidableEq, Repr

/-- A waiting off-air request (R112). `until_` is the end instant (base day, base minute of day) of
a request of kind MAINTENANCE, and absent for kind OFF. -/
structure OffReq where
  until_ : Option (Nat × Nat)
  deferred : Bool
  deriving DecidableEq, Repr

/-- A maintenance record (R112). -/
structure Maint where
  endDay : Nat
  endMinute : Nat
  resume : Mode
  due : Bool
  deriving DecidableEq, Repr

/-- A frame record with its second-0 edge: its instant and the second it began (R112, R132). -/
structure Keyed where
  record : FrameRecord
  edgeAt : Nat
  edgeDay : Nat
  edgeSec : Nat
  deriving DecidableEq, Repr

/-- An interval of a mark: whether the carrier is reduced in it, and the instant it runs out (R4). -/
structure MarkInterval where
  reduced : Bool
  endsAt : Nat
  deriving DecidableEq, Repr

structure Keyer where
  mode : Mode
  pendingMode : Option Mode
  offReq : Option OffReq
  maint : Option Maint
  windowReport : Bool
  hold : Bool
  /-- The level pair in use (R3). -/
  full : Nat
  reduced : Nat
  current : Option Keyed
  history : List Keyed
  /-- The pattern generator: stage n is bit n - 1 (R17, R209). -/
  gen : BitVec 15
  /-- The intervals of the mark in progress that have not run out, in order; none is left once the
  carrier stays full to the next edge (R4, R5). -/
  mark : List MarkInterval
  /-- Which edge after the minute boundary began the second in progress, the boundary being 0 (R14). -/
  secIdx : Nat
  /-- OFF_AIR_DEFERRED (R122). -/
  deferred : Bool
  deriving DecidableEq, Repr

/-! ## Amplifier bus (Chapter 8) -/

inductive ModuleState where
  | unknown
  | ok
  | warning
  | fault
  | silent
  deriving DecidableEq, Repr

/-- A scan table record (R157). The status word is the register as read, laid out by R154. -/
structure ScanRec where
  st : ModuleState
  status : Option (BitVec 16)
  passes : Nat
  deriving DecidableEq, Repr

/-- An entry of the relay queue (R160). `value` is the value of a write, absent for a read. -/
structure RelayEntry where
  link : Link
  tag : Tag
  address : Nat
  register : Nat
  value : Option (BitVec 16)
  underWay : Bool
  wanted : Bool
  deriving DecidableEq, Repr

/-- The part of an attempt in progress: its sending, or its answer window with the instant at which
the window ends (R151). -/
inductive AttemptPhase where
  | sending
  | window (endsAt : Nat)
  deriving DecidableEq, Repr

/-- The transaction in progress (R151, R152). -/
structure Txn where
  /-- A scan read; otherwise the relay entry under way. -/
  scan : Bool
  address : Nat
  register : Nat
  value : Option (BitVec 16)
  /-- The number of further attempts allowed, taken at the beginning (R152). -/
  retries : Nat
  /-- The attempts begun so far, 1..4. -/
  attempts : Nat
  phase : AttemptPhase
  /-- The scan range changed while this scan read ran, so that its end does not move the scan
  position (R159: the next scan read is of first). -/
  rangeChanged : Bool
  deriving DecidableEq, Repr

structure Bus where
  first : Nat
  last : Nat
  pos : Nat
  table : Vector ScanRec 31
  queue : List RelayEntry
  txn : Option Txn
  deriving DecidableEq, Repr

/-! ## Off-air monitor (Chapter 9) -/

/-- An instant with the second it falls in. -/
structure Instant where
  at_ : Nat
  day : Nat
  sec : Nat
  deriving DecidableEq, Repr

/-- An open mark (R166, R168): its start, the widths of its closed intervals, the instant at which
the interval in progress began, and the stale flag. -/
structure OpenMark where
  start : Instant
  widths : List Nat
  since : Nat
  stale : Bool
  deriving DecidableEq, Repr

inductive Detector where
  | idle
  | mark (m : OpenMark)
  | stuck
  deriving DecidableEq, Repr

/-- The collection of the frame assembler in IN_FRAME (R166, R172). -/
structure Collection where
  start : Instant
  syms : List Symbol
  excess : Nat
  deriving DecidableEq, Repr

/-- Why a frame is BAD (R174, R176). -/
inductive BadReason where
  | mismatch
  | noRecord
  | length
  | invalidSymbol
  | marker
  | parity
  | crc
  | timeout
  deriving DecidableEq, Repr

/-- The last frame record (R176). The verdict is MATCHED when there is no reason, and BAD with its
reason otherwise. -/
structure LastFrame where
  reason : Option BadReason
  syms : List Symbol
  excess : Nat
  start : Instant
  matched : Option (Nat × Nat)
  differing : Nat
  injected : Bool
  deriving DecidableEq, Repr

inductive AnalyzerState where
  | hunting
  | checking
  | inSync
  deriving DecidableEq, Repr

structure Monitor where
  det : Detector
  lastSymbol : Option Symbol
  lastDelay : Nat
  /-- The instant at which the last delay was taken, which an edge made at that very instant needs (R171).
  A field of the model's own. -/
  delayAt : Option Nat
  /-- The collection in IN_FRAME; absent in SEARCHING. -/
  coll : Option Collection
  /-- The instant at which the frame timer runs out; absent while it is stopped. -/
  timer : Option Nat
  bad : Nat
  good : Nat
  /-- FRAME_LOST (R178). -/
  frameLost : Bool
  inject : Bool
  lastFrame : Option LastFrame
  /-- The notice assembly (R179). -/
  collecting : Bool
  octets : List Octet
  heldHigh : Option (BitVec 4)
  /-- The received notice buffer (R180). -/
  rxText : List Octet
  rxCycles : Nat
  /-- The pattern analyzer (R181, R182). -/
  an : AnalyzerState
  hunt : List Symbol
  gen : BitVec 15
  correct : Nat
  miss : Nat
  deriving DecidableEq, Repr

/-! ## Conditions block (Chapter 10) -/

structure Conditions where
  active : CondSet
  viewA : ItemSet
  viewB : ItemSet
  maskA : ItemSet
  maskB : ItemSet
  faultMask : CondSet
  live : Vector Nat 12
  latched : Vector Nat 12
  thresholds : Vector Nat 12
  seq : Nat
  overSet : CounterSet
  deriving DecidableEq, Repr

/-! ## Control links and request executor (Chapter 11) -/

/-- The result codes of R214, in order of code. -/
inductive Result where
  | ok
  | pending
  | busy
  | unknown
  | badLength
  | badArgument
  | notReady
  | inUse
  | onAir
  | conflict
  | tooLate
  | full
  | notFound
  | noAnswer
  deriving DecidableEq, Repr

/-- The receive parser (R208) with the octets of the frame in progress. -/
inductive RxState where
  | hunt
  | length
  | body (len : Octet) (got : List Octet)
  | check (len : Octet) (got : List Octet) (first : Option Octet)
  deriving DecidableEq, Repr

/-- The state of an outstanding entry (R211). -/
inductive EntryState where
  | waiting
  | inRelay
  | answered
  deriving DecidableEq, Repr

/-- A request: its TAG, CODE and argument octets (R209). -/
structure Request where
  tag : Tag
  code : Octet
  args : List Octet
  deriving DecidableEq, Repr

structure Outstanding where
  req : Request
  st : EntryState
  /-- Model's own: the entry is or was IN_RELAY, so that its response is that of a relay. -/
  relayed : Bool
  deriving DecidableEq, Repr

/-- A response in a link's output. `atOnce` marks one given at once under R210, which takes no place
in the outstanding list; `relayed`, the model's own, one that answers an entry IN_RELAY. -/
structure Response where
  tag : Tag
  code : Octet
  result : Result
  data : List Octet
  atOnce : Bool
  relayed : Bool
  deriving DecidableEq, Repr

structure LinkState where
  rx : RxState
  /-- The instant at which the gap timer runs out; it does not run in HUNT. -/
  gapAt : Nat
  outstanding : List Outstanding
  output : List Response
  deriving DecidableEq, Repr

structure Executor where
  turn : Link
  count : Nat
  restartAwaited : Bool
  deriving DecidableEq, Repr

/-! ## The machine -/

/-- Why a step would stop with a fault. The WZ416 has no event that stops it, so no meaning raises
one. -/
inductive Fault where
  /-- Raised by nobody: the manual gives every event an effect. It stands so that the type has a
  name in it; safe. -/
  | neverRaised
  deriving DecidableEq, Repr

/-- Why a step would be refused. -/
inductive Refusal where
  /-- Raised by `exec` for a command that has no meaning yet; safe. No arm raises it now. -/
  | notModelled (mnemonic : String)
  deriving DecidableEq, Repr

@[ext]
structure State where
  /-- POR_N is held at 0 (R220). -/
  por : Bool
  /-- The level of TX_READY (R114). -/
  txReady : Bool
  /-- The level of MON_IN (R168). -/
  monIn : Bool
  /-- The instant from which FREQ_IN is present without a break; it is absent before (R19, R20). -/
  freqFrom : Nat
  /-- Model's own: cycles counted since the power-on start. -/
  now : Nat
  params : Params
  tb : Timebase
  ref1 : RefPort
  ref2 : RefPort
  sel : Selector
  synth : Synth
  sched : Schedule
  comp : Composer
  key : Keyer
  bus : Bus
  mon : Monitor
  cond : Conditions
  linkA : LinkState
  linkB : LinkState
  exe : Executor
  /-- The commands that wait, first in, first out. -/
  pending : List Instr
  /-- Model's own: how many free values have been drawn (Config). -/
  freeCount : Nat
  deriving DecidableEq, Repr

/-! ## After a power-on reset -/

/-- Every parameter at its default (R216). -/
def Params.reset : Params where
  qualWindow := 200
  qualCount := 16
  disqCount := 4
  refAgree := 100
  slew := 64
  fullLevel := 1000
  depth := 15
  tickPeriod := 15
  lofSet := 3
  lofClear := 2
  ampRetries := 2
  minModules := 0
  arbWeightA := 1
  arbWeightB := 1
  carryOver := false
  monitorEnable := true
  scanEnable := true

/-- R41, with FREQ_IN present. DESIGN CHOICE, unsafe: `day` and `sec` have no meaning while UNSET
and are held as 0 (log 4). -/
def Timebase.reset : Timebase where
  timeSet := false
  day := 0
  sec := 0
  minLen := 60
  handed := none
  freeSec := 0
  freeMin := 0
  disc := .free
  holdAge := 0
  source := .station
  trim := 0
  trimValid := false
  k := 0
  winCount := 0
  winSum := 0
  begunLocked := false
  corr := 0
  slewing := false
  lastCorr := 0
  lastSlew := false
  edgeAt := 0
  edgeMade := false
  length := 10000000
  stepWaiting := false
  acq := none
  pendingStep := none

/-- R61. -/
def RefPort.reset : RefPort where
  enable := true
  st := .absent
  goodRun := 0
  irregRun := 0
  unlabRun := 0
  missed := 0
  watch := none
  lastPulse := none
  waiting := none
  last := none
  lastOffset := 0
  leapDis := false
  openPulses := []
  edgeOffset := none
  rx := []
  rxLate := false
  rxGapAt := 0

/-- R61. -/
def Selector.reset : Selector where
  mode := .auto
  selection := none
  manual := none
  diff := none
  disagree := false

/-- R149. -/
def Synth.reset : Synth where
  n := 228
  k := 125
  p := 0
  b := 0
  st := .off
  inRun := 0
  outRun := 0
  last := .none
  periodAt := 0

/-- R88. -/
def Schedule.reset : Schedule where
  entries := []
  retired := []
  nextNum := 1
  version := 0
  offsets := Vector.replicate 4 0
  zone := 0
  pendingZone := none

/-- R110. -/
def Composer.reset : Composer where
  text0 := []
  text1 := []
  active := .s0
  pendingSlot := none
  octIdx := -1
  low := false
  next := none

/-- R133. -/
def Keyer.reset : Keyer where
  mode := .offAir
  pendingMode := none
  offReq := none
  maint := none
  windowReport := false
  hold := false
  full := 1000
  reduced := 150
  current := none
  history := []
  gen := BitVec.allOnes 15
  mark := []
  secIdx := 0
  deferred := false

/-- A record outside the scan range, or never read since (R157). -/
def ScanRec.reset : ScanRec where
  st := .unknown
  status := none
  passes := 0

/-- R164: the scan read of address 1 begins at the end of the reset. -/
def Bus.reset : Bus where
  first := 1
  last := 8
  pos := 1
  table := Vector.replicate 31 ScanRec.reset
  queue := []
  txn := some {
    scan := true, address := 1, register := 0, value := none, retries := 2, attempts := 1,
    phase := .sending, rangeChanged := false }

/-- R186, with MON_IN at 0. -/
def Monitor.reset : Monitor where
  det := .idle
  lastSymbol := none
  lastDelay := 0
  delayAt := none
  coll := none
  timer := none
  bad := 0
  good := 0
  frameLost := false
  inject := false
  lastFrame := none
  collecting := false
  octets := []
  heldHigh := none
  rxText := []
  rxCycles := 0
  an := .hunting
  hunt := []
  gen := BitVec.allOnes 15
  correct := 0
  miss := 0

/-- The default alert mask: TICK, item 23, alone (R193). -/
def alertMaskDefault : ItemSet := 0x0800000#25

/-- The default fault mask: FREQ_LOSS 6, SYNTH_UNLOCKED 7, TX_NOT_READY 8, MODULE_ALARM 9 and
FRAME_LOST 10 (R195). -/
def faultMaskDefault : CondSet := 0b0011111000000#13

/-- R204: TIME_UNSET 0, REF1_UNQUALIFIED 3 and REF2_UNQUALIFIED 4 are active and in both views. -/
def Conditions.reset : Conditions where
  active := 0b11001#13
  viewA := 0b11001#25
  viewB := 0b11001#25
  maskA := alertMaskDefault
  maskB := alertMaskDefault
  faultMask := faultMaskDefault
  live := Vector.replicate 12 0
  latched := Vector.replicate 12 0
  thresholds := Vector.replicate 12 0
  seq := 0
  overSet := 0

/-- R220: HUNT, an empty outstanding list, an empty output. -/
def LinkState.reset : LinkState where
  rx := .hunt
  gapAt := 0
  outstanding := []
  output := []

/-- R220. -/
def Executor.reset : Executor where
  turn := .a
  count := 0
  restartAwaited := false

/-- The machine right after a power-on reset (R220). DESIGN CHOICE, unsafe: the input lines are
TX_READY 0, MON_IN 0 and FREQ_IN present, levels the spec cannot give (log 3). -/
def State.reset : State where
  por := false
  txReady := false
  monIn := false
  freqFrom := 0
  now := 0
  params := Params.reset
  tb := Timebase.reset
  ref1 := RefPort.reset
  ref2 := RefPort.reset
  sel := Selector.reset
  synth := Synth.reset
  sched := Schedule.reset
  comp := Composer.reset
  key := Keyer.reset
  bus := Bus.reset
  mon := Monitor.reset
  cond := Conditions.reset
  linkA := LinkState.reset
  linkB := LinkState.reset
  exe := Executor.reset
  pending := []
  freeCount := 0

end Sys2Proof.Machine
end

