-- ==== Sys2Proof/Machine/Operands.lean ====
section
/-! DEFINITION. The operand forms of R209: how arguments read as choices, and how the values of a
response become octets. -/

namespace Sys2Proof.Machine

/-! ## Choices among the arguments (R209). `none` is an octet that names no choice. -/

/-- Mode: OFF_AIR 0, CARRIER_ONLY 1, TIME_CODE 2, TEST_PATTERN 3. -/
def modeOf (o : Octet) : Option Mode :=
  match o.toNat with
  | 0 => some .offAir
  | 1 => some .carrierOnly
  | 2 => some .timeCode
  | 3 => some .testPattern
  | _ => none

/-- Selection mode: AUTO 0, MANUAL 1. -/
def selectModeOf (o : Octet) : Option SelectMode :=
  match o.toNat with
  | 0 => some .auto
  | 1 => some .manual
  | _ => none

/-- Change kind: LEAP_INSERT 0, LEAP_DELETE 1, ZONE_CHANGE 2. -/
def kindOf (o : Octet) : Option ChangeKind :=
  match o.toNat with
  | 0 => some .leapInsert
  | 1 => some .leapDelete
  | 2 => some .zoneChange
  | _ => none

/-- Port number: 1 or 2. -/
def portOf (o : Octet) : Option Port :=
  match o.toNat with
  | 1 => some .p1
  | 2 => some .p2
  | _ => none

/-- Reference choice: NONE 0, port 1, port 2. -/
def refChoiceOf (o : Octet) : Option (Option Port) :=
  match o.toNat with
  | 0 => some none
  | 1 => some (some .p1)
  | 2 => some (some .p2)
  | _ => none

/-- Setting: off 0, on 1. -/
def settingOf (o : Octet) : Option Bool :=
  match o.toNat with
  | 0 => some false
  | 1 => some true
  | _ => none

/-- Notice slot: 0 or 1 (R107). -/
def slotOf (o : Octet) : Option Slot :=
  match o.toNat with
  | 0 => some .s0
  | 1 => some .s1
  | _ => none

/-! ## Numbers -/

/-- The low `n` octets of `v`, high octet first. -/
def octetsBE : Nat → Nat → List Octet
  | 0, _ => []
  | n + 1, v => octetsBE n (v / 256) ++ [BitVec.ofNat 8 v]

/-- `v` in two's complement on `n` octets, high octet first. -/
def signedBE (n : Nat) (v : Int) : List Octet :=
  octetsBE n (v % (256 ^ n : Nat)).toNat

/-- yes, on, set, active and asserted are 1; no, off, clear, inactive and deasserted are 0. -/
def encFlag (b : Bool) : List Octet := [if b then 1 else 0]

/-- An optional value: 0 when absent, 1 and the value when present. -/
def encOption {α : Type} (enc : α → List Octet) : Option α → List Octet
  | none => [0]
  | some v => 1 :: enc v

/-- A list: the number of its items, then the items in order. -/
def encList {α : Type} (enc : α → List Octet) (xs : List α) : List Octet :=
  octetsBE 1 xs.length ++ xs.flatMap enc

/-- An octet string: its length, then its octets. -/
def encString (xs : List Octet) : List Octet :=
  octetsBE 1 xs.length ++ xs

/-- A set of items or of counter ids: four octets, bit n for item n. -/
def encSet {w : Nat} (set : BitVec w) : List Octet := octetsBE 4 set.toNat

/-- A parameter value: two octets, on as 1 and off as 0 (log 7). -/
def encParam (v : Nat) : List Octet := octetsBE 2 v

/-- A day number and a minute of day. -/
def encDayMinute (i : Nat × Nat) : List Octet := octetsBE 2 i.1 ++ octetsBE 2 i.2

/-- A day number and a second of day. -/
def encDaySecond (i : Nat × Nat) : List Octet := octetsBE 2 i.1 ++ octetsBE 3 i.2

/-! ## Named values -/

def encLink : Link → List Octet
  | .a => [0]
  | .b => [1]

def encMode : Mode → List Octet
  | .offAir => [0]
  | .carrierOnly => [1]
  | .timeCode => [2]
  | .testPattern => [3]

def encSelectMode : SelectMode → List Octet
  | .auto => [0]
  | .manual => [1]

def encRefChoice : Option Port → List Octet
  | none => [0]
  | some .p1 => [1]
  | some .p2 => [2]

def encKind : ChangeKind → List Octet
  | .leapInsert => [0]
  | .leapDelete => [1]
  | .zoneChange => [2]

/-- Leap warning and leap code: none 0, insert 1, delete 2 (R44, R100). -/
def encLeap : LeapCode → List Octet
  | .none => [0]
  | .insert => [1]
  | .delete => [2]

def encDiscipline : Discipline → List Octet
  | .free => [0]
  | .locked => [1]
  | .holdover => [2]

def encSource : Source → List Octet
  | .station => [0]
  | .standby => [1]

def encPortState : PortState → List Octet
  | .disabled => [0]
  | .absent => [1]
  | .candidate => [2]
  | .qualified => [3]

def encSynthState : SynthState → List Octet
  | .off => [0]
  | .acquiring => [1]
  | .locked => [2]

def encJudgement : Judgement → List Octet
  | .none => [0]
  | .within => [1]
  | .outside => [2]

def encOutcome : RetireOutcome → List Octet
  | .applied => [0]
  | .appliedLate => [1]
  | .missed => [2]
  | .withdrawn => [3]

def encSlot : Slot → List Octet
  | .s0 => [0]
  | .s1 => [1]

def encModuleState : ModuleState → List Octet
  | .unknown => [0]
  | .ok => [1]
  | .warning => [2]
  | .fault => [3]
  | .silent => [4]

def encDetector : Detector → List Octet
  | .idle => [0]
  | .mark _ => [1]
  | .stuck => [2]

def encAnalyzer : AnalyzerState → List Octet
  | .hunting => [0]
  | .checking => [1]
  | .inSync => [2]

/-- The reasons in the order of the table of R176, with the checks of R174 in their place (log 7). -/
def encReason : BadReason → List Octet
  | .mismatch => [0]
  | .noRecord => [1]
  | .length => [2]
  | .invalidSymbol => [3]
  | .marker => [4]
  | .parity => [5]
  | .crc => [6]
  | .timeout => [7]

/-- The code of a result (R214). -/
def Result.code : Result → Octet
  | .ok => 0
  | .pending => 1
  | .busy => 2
  | .unknown => 3
  | .badLength => 4
  | .badArgument => 5
  | .notReady => 6
  | .inUse => 7
  | .onAir => 8
  | .conflict => 9
  | .tooLate => 10
  | .full => 11
  | .notFound => 12
  | .noAnswer => 13

/-! ## Symbols (R209) -/

/-- The code of a symbol: 0, 1, H, M, INVALID. -/
def Symbol.code : Symbol → Nat
  | .zero => 0
  | .one => 1
  | .half => 2
  | .minute => 3
  | .invalid => 4

/-- The bits of `v` on `w` places, most significant first. -/
def bitsBE (w v : Nat) : List Bool :=
  ((List.range w).map fun i => v.testBit i).reverse

/-- The octet whose most significant bits are the first eight of `bits`, with 0 bits to fill. -/
def octetOfBits (bits : List Bool) : Octet :=
  BitVec.ofNat 8 ((List.range 8).foldl (fun v i => 2 * v + (bits.getD i false).toNat) 0)

/-- `n` octets packed from the most significant bits onward. -/
def packBits : Nat → List Bool → List Octet
  | 0, _ => []
  | n + 1, bits => octetOfBits (bits.take 8) :: packBits n (bits.drop 8)

/-- A list of symbols on `w` bits each: their number, then the packed symbols. -/
def encSymbols (w : Nat) (syms : List Symbol) : List Octet :=
  octetsBE 1 syms.length ++
    packBits ((syms.length * w + 7) / 8) (syms.flatMap fun x => bitsBE w x.code)

/-- A single symbol: its four-bit code in the low bits of one octet. -/
def encSymbol (x : Symbol) : List Octet := octetsBE 1 x.code

end Sys2Proof.Machine
end

