-- ==== Sys2Proof/Machine/Ops.lean ====
section
/-! DEFINITION. Named operations over the state that several blocks use: the passing of time, access
to links and ports by name, and the values the manual derives from state. -/

namespace Sys2Proof.Machine

/-! ## Time -/

/-- `dt` cycles of the oscillator in use pass. -/
def State.wait (dt : Nat) (s : State) : State := { s with now := s.now + dt }

/-- Time goes on to the instant `t`, if it is still ahead. -/
def State.waitUntil (t : Nat) (s : State) : State := { s with now := max s.now t }

/-- FREQ_IN is present (R19). -/
def State.freqPresent (s : State) : Bool := s.freqFrom ≤ s.now

/-- The presence time (R20): the cycles for which FREQ_IN has been present, kept while counting is
on the standby oscillator. -/
def State.presence (s : State) : Nat :=
  match s.tb.source with
  | .station => 0
  | .standby => min 100000000 (s.now - s.freqFrom)

/-! ## Broadcast time (R22) -/

/-- The minute of day of second of day `sec`. -/
def minuteOfDay (sec : Nat) : Nat := if sec = 86400 then 1439 else sec / 60

/-- The second of minute of second of day `sec`. -/
def secondOfMinute (sec : Nat) : Nat := if sec = 86400 then 60 else sec % 60

/-- The linear minute number of a base day and minute of day (R64). -/
def linearMinute (day minute : Nat) : Nat := day * 1440 + minute

/-- The linear minute number of the current broadcast time. -/
def Timebase.minute (t : Timebase) : Nat := linearMinute t.day (minuteOfDay t.sec)

/-- The instant at which the second in progress reaches its computed length (R26). -/
def Timebase.due (t : Timebase) : Nat := t.edgeAt + t.length.toNat

/-- The instant `now`, with the second in progress. -/
def State.instant (s : State) : Instant where
  at_ := s.now
  day := s.tb.day
  sec := s.tb.sec

/-! ## Links and ports by name -/

def State.link (s : State) : Link → LinkState
  | .a => s.linkA
  | .b => s.linkB

def State.setLink (s : State) : Link → LinkState → State
  | .a, v => { s with linkA := v }
  | .b, v => { s with linkB := v }

def State.port (s : State) : Port → RefPort
  | .p1 => s.ref1
  | .p2 => s.ref2

def State.setPort (s : State) : Port → RefPort → State
  | .p1, v => { s with ref1 := v }
  | .p2, v => { s with ref2 := v }

def Conditions.view (c : Conditions) : Link → ItemSet
  | .a => c.viewA
  | .b => c.viewB

def Conditions.setView (c : Conditions) : Link → ItemSet → Conditions
  | .a, v => { c with viewA := v }
  | .b, v => { c with viewB := v }

def Conditions.mask (c : Conditions) : Link → ItemSet
  | .a => c.maskA
  | .b => c.maskB

def Conditions.setMask (c : Conditions) : Link → ItemSet → Conditions
  | .a, v => { c with maskA := v }
  | .b, v => { c with maskB := v }

/-- The port is in QUALIFIED. -/
def State.qualified (s : State) (p : Port) : Bool := (s.port p).st = .qualified

/-- The port the selection names, if it is QUALIFIED: the one the timebase steers by (R30, R31). -/
def State.steering (s : State) : Option Port :=
  match s.sel.selection with
  | none => none
  | some p => if s.qualified p then some p else none

/-! ## Keyer and transmitter -/

/-- The keyer is on air: in any mode but OFF_AIR (R113). -/
def Keyer.onAir (k : Keyer) : Bool := k.mode ≠ .offAir

/-- The keyer is in TIME_CODE or has a change to TIME_CODE pending (R119). -/
def Keyer.nearTimeCode (k : Keyer) : Bool := k.mode = .timeCode || k.pendingMode = some .timeCode

/-! ## Amplifier modules (R154, R158) -/

/-- Output enabled, bit 12 of the status word. -/
def outputEnabled (w : BitVec 16) : Bool := w.getLsbD 12

/-- The module state that a status word gives: fault at bit 15, warning at bit 14, over-temperature
at bit 13. -/
def moduleStateOf (w : BitVec 16) : ModuleState :=
  if w.getLsbD 15 then .fault
  else if w.getLsbD 14 || w.getLsbD 13 then .warning
  else .ok

/-- A record whose address contributes: OK or WARNING with output enabled. -/
def ScanRec.contributes (r : ScanRec) : Bool :=
  (r.st = .ok || r.st = .warning) && (r.status.map outputEnabled).getD false

/-- The contributing count. -/
def Bus.contributing (b : Bus) : Nat := b.table.toList.countP ScanRec.contributes

/-- The record of a module address 1..31. -/
def Bus.record (b : Bus) (address : Nat) : ScanRec :=
  (b.table[address - 1]?).getD ScanRec.reset

/-- The address lies in the scan range (R155). -/
def Bus.inRange (b : Bus) (address : Nat) : Bool := b.first ≤ address && address ≤ b.last

/-- MODULE_ALARM's cause: an address in the scan range is FAULT or SILENT. -/
def Bus.alarm (b : Bus) : Bool :=
  (List.range 32).any fun a =>
    b.inRange a && ((b.record a).st = .fault || (b.record a).st = .silent)

/-- Transmitter ready (R114). -/
def State.transmitterReady (s : State) : Bool :=
  s.txReady && s.params.minModules ≤ s.bus.contributing

/-! ## Change schedule -/

/-- The announcing indication (R80). -/
def Schedule.announcing (t : Schedule) : Bool := t.entries.any (·.announcing)

/-- The linear minute number of an entry's effective instant E. -/
def Entry.e (x : Entry) : Nat := linearMinute x.eDay x.eMinute

/-- The entry is a leap entry. -/
def Entry.isLeap (x : Entry) : Bool := x.kind ≠ .zoneChange

/-- The offset of a zone index, in quarter hours (R85). -/
def Schedule.offset (t : Schedule) (index : Nat) : Int := (t.offsets[index]?).getD 0

/-! ## Levels (R2) -/

/-- The reduced level of full level `f` at depth `d` percent. -/
def reducedLevel (f d : Nat) : Nat := (f * d + 50) / 100

/-! ## Pattern generators (R17) -/

/-- The output bit, stage 15. -/
def genOutput (g : BitVec 15) : Bool := g.getLsbD 14

/-- One step: stage 1 takes stage 15 exclusive-or stage 14, each other stage the one below it. -/
def genStep (g : BitVec 15) : BitVec 15 :=
  (g <<< 1) ||| BitVec.ofNat 15 (g.getLsbD 14 ^^ g.getLsbD 13).toNat

/-- The generator's seed: 1 in every stage. -/
def genSeed : BitVec 15 := BitVec.allOnes 15

/-- The generator's symbol. -/
def genSymbol (g : BitVec 15) : Symbol := if genOutput g then .one else .zero

end Sys2Proof.Machine
end

