-- ==== Sys2Proof/Machine/Flags.lean ====
section
/-! DEFINITION. Conditions, events and counters (Chapter 10), and the lines driven from them.

A condition is active exactly while its cause holds (R188). `State.causes` says which causes hold;
`State.settle` brings the active set up to date at the end of an event and adds each condition that
became active to both views (R190). -/

namespace Sys2Proof.Machine

/-! ## Events (R189) -/

inductive Event where
  | timeMismatch
  | leapDisagree
  | refSwitch
  | synthLockChange
  | modeChange
  | scheduleChange
  | monitorMismatch
  | blankMinute
  | moduleChange
  | threshold
  | tick
  | resumeFailed
  deriving DecidableEq, Repr

/-- The item number of an event. -/
def Event.item : Event → Nat
  | .timeMismatch => 13
  | .leapDisagree => 14
  | .refSwitch => 15
  | .synthLockChange => 16
  | .modeChange => 17
  | .scheduleChange => 18
  | .monitorMismatch => 19
  | .blankMinute => 20
  | .moduleChange => 21
  | .threshold => 22
  | .tick => 23
  | .resumeFailed => 24

/-- Items are added to both latched views (R190). -/
def Conditions.addToViews (c : Conditions) (items : ItemSet) : Conditions :=
  { c with viewA := c.viewA ||| items, viewB := c.viewB ||| items }

/-- The event is raised: it enters both latched views. -/
def State.raise (s : State) (e : Event) : State :=
  { s with cond := s.cond.addToViews (BitVec.twoPow 25 e.item) }

/-- The event is raised if `b` holds. -/
def State.raiseIf (s : State) (b : Bool) (e : Event) : State :=
  if b then s.raise e else s

/-! ## Counters (R197) -/

inductive Counter where
  | monSymbolErrors
  | monFramesGood
  | monFramesBad
  | monPatternErrors
  | blankMinutes
  | ref1Disqualify
  | ref2Disqualify
  | slewSeconds
  | ampRetriesCount
  | ampNoAnswer
  | linkADiscards
  | linkBDiscards
  deriving DecidableEq, Repr

/-- The id of a counter. -/
def Counter.id : Counter → Fin 12
  | .monSymbolErrors => 0
  | .monFramesGood => 1
  | .monFramesBad => 2
  | .monPatternErrors => 3
  | .blankMinutes => 4
  | .ref1Disqualify => 5
  | .ref2Disqualify => 6
  | .slewSeconds => 7
  | .ampRetriesCount => 8
  | .ampNoAnswer => 9
  | .linkADiscards => 10
  | .linkBDiscards => 11

/-- The greatest value of a counter, at which it saturates. -/
def counterMax : Nat := 4294967295

/-- The live value of a counter goes up by `n` and saturates. -/
def State.count (s : State) (c : Counter) (n : Nat) : State :=
  { s with cond := { s.cond with
      live := s.cond.live.set c.id (min counterMax (s.cond.live[c.id] + n)) } }

/-! ## Conditions (R188) -/

/-- PATTERN_UNSYNC's cause (R183). -/
def State.patternUnsync (s : State) : Bool :=
  s.key.mode = .testPattern && s.params.monitorEnable && s.mon.an ≠ .inSync

/-- The causes of conditions 0..12, in order of item. -/
def State.causes (s : State) : List Bool :=
  [ !s.tb.timeSet,
    s.tb.disc = .holdover,
    s.tb.disc = .free && s.tb.timeSet,
    s.ref1.enable && s.ref1.st ≠ .qualified,
    s.ref2.enable && s.ref2.st ≠ .qualified,
    s.sel.disagree,
    s.tb.source = .standby,
    s.synth.st = .acquiring,
    s.key.onAir && !s.transmitterReady,
    s.bus.alarm,
    s.mon.frameLost,
    s.patternUnsync,
    s.key.deferred ]

/-- The set of conditions whose cause holds. -/
def State.activeNow (s : State) : CondSet := BitVec.ofBoolListLE s.causes

/-- The end of an event: the active set becomes the conditions whose cause holds, and each condition
that was not active before enters both views (DEDUCED, log 17). -/
def State.settle (s : State) : State :=
  { s with cond := { s.cond.addToViews ((s.activeNow &&& ~~~s.cond.active).setWidth 25) with
      active := s.activeNow } }

/-- A reset of the conditions block's views (R204, R205): the active set becomes the conditions whose
cause holds, and both views that set. -/
def State.resetViews (s : State) : State :=
  { s with cond := { s.cond with
      active := s.activeNow, viewA := s.activeNow.setWidth 25, viewB := s.activeNow.setWidth 25 } }

/-! ## The alert lines and the fault line -/

/-- LA_ALERT, LB_ALERT (R194): the view holds an item that is not in the mask. Deasserted while POR_N
is at 0 (R220). -/
def State.alertLine (s : State) (l : Link) : Bool :=
  !s.por && (s.cond.view l &&& ~~~s.cond.mask l) ≠ 0

/-- FAULT_OUT (R196): an active condition is in the fault mask. Deasserted while POR_N is at 0. -/
def State.faultLine (s : State) : Bool :=
  !s.por && (s.cond.active &&& s.cond.faultMask) ≠ 0

end Sys2Proof.Machine
end

