-- ==== Sys2Proof/Machine/Links.lean ====
section
/-! DEFINITION. The control links and the request executor (Chapter 11): link frames, the receive
parser, the outstanding lists, the choice between the links, and the execution of one request. -/

namespace Sys2Proof.Machine

/-! ## The link frame (R207) -/

/-- One bit of the CRC-16 with generator 0x1021. -/
def crc16Bit (r : BitVec 16) (bit : Bool) : BitVec 16 :=
  if bit ^^ r.getLsbD 15 then (r <<< 1) ^^^ 0x1021#16 else r <<< 1

/-- One octet, most significant bit first. -/
def crc16Octet (r : BitVec 16) (o : Octet) : BitVec 16 :=
  (bitsBE 8 o.toNat).foldl crc16Bit r

/-- The check over LEN and BODY, from 0xFFFF. -/
def crc16 (xs : List Octet) : BitVec 16 := xs.foldl crc16Octet 0xFFFF#16

/-- The octets of a frame around a body. -/
def linkFrame (body : List Octet) : List Octet :=
  let counted := octetsBE 1 body.length ++ body
  0xC3#8 :: counted ++ octetsBE 2 (crc16 counted).toNat

/-- The octets of a response on the TX line: TAG, CODE, RESULT and data in a frame (R209). -/
def Response.frame (r : Response) : List Octet :=
  linkFrame (octetsBE 2 r.tag.toNat ++ r.code :: r.result.code :: r.data)

/-- The octets that a link's TX line is sending: those of the oldest response, or none while the line
is idle at 1 (R211, R220). -/
def State.txLine (s : State) (l : Link) : Option (List Octet) :=
  if s.por then none else (s.link l).output.head?.map Response.frame

/-! ## The catalogue (R215) -/

/-- The CODEs with a fixed number of argument octets. WRITE_NOTICE, 0x60, is apart. -/
def catalogue : List (Octet × Nat) :=
  [ (0x01, 0), (0x02, 4), (0x03, 4), (0x04, 1), (0x05, 0), (0x06, 5),
    (0x10, 0), (0x11, 5),
    (0x20, 1), (0x21, 2), (0x22, 1), (0x23, 0),
    (0x30, 6), (0x31, 0), (0x32, 0), (0x33, 0),
    (0x40, 1), (0x41, 0), (0x42, 1), (0x43, 4), (0x44, 1) ] ++
  [ (0x50, 8), (0x51, 1), (0x52, 1), (0x53, 1), (0x54, 2), (0x55, 1),
    (0x61, 1), (0x62, 1),
    (0x70, 1), (0x71, 0),
    (0x80, 2), (0x81, 4), (0x82, 1), (0x83, 3),
    (0x90, 3), (0x91, 1), (0x92, 0) ]

/-- Whether the argument octets number what the catalogue gives; `none` for a CODE that is not in it.
WRITE_NOTICE has 2 + n, where n is its length octet. -/
def argsFit (code : Octet) (args : List Octet) : Option Bool :=
  if code = 0x60 then
    some (match args with
      | _ :: n :: text => text.length = n.toNat
      | _ => false)
  else (catalogue.lookup code).map (· = args.length)

/-! ## Responses and outstanding entries (R210, R211) -/

/-- A frame of the link is discarded and counted (R208, R210). -/
def State.countDiscard (s : State) : Link → State
  | .a => s.count .linkADiscards 1
  | .b => s.count .linkBDiscards 1

/-- A response is given at once, without a place in the outstanding list: a fifth that would wait is
not given, and its frame is counted as discarded. The one being sent counts (DEDUCED, log 14). -/
def State.giveAtOnce (s : State) (l : Link) (q : Request) (r : Result) : State :=
  let ls := s.link l
  if 4 ≤ ls.output.countP (·.atOnce) then s.countDiscard l
  else s.setLink l { ls with
    output := ls.output ++ [{
      tag := q.tag, code := q.code, result := r, data := [], atOnce := true, relayed := false }] }

/-- A request arrives on a link in a frame whose check holds (R210). -/
def State.arrive (s : State) (l : Link) (q : Request) : State :=
  let ls := s.link l
  if 8 ≤ ls.outstanding.length then s.giveAtOnce l q .busy
  else match argsFit q.code q.args with
    | none => s.giveAtOnce l q .unknown
    | some false => s.giveAtOnce l q .badLength
    | some true => s.setLink l { ls with outstanding := ls.outstanding ++ [⟨q, .waiting, false⟩] }

/-- The first element that satisfies `p` is changed by `f`. -/
def updateFirst {α : Type} (p : α → Bool) (f : α → α) : List α → List α
  | [] => []
  | x :: xs => if p x then f x :: xs else x :: updateFirst p f xs

/-- The entry goes to state `st`, and is a relay's from IN_RELAY on. -/
def Outstanding.goTo (e : Outstanding) (st : EntryState) : Outstanding :=
  { e with st := st, relayed := e.relayed || st = .inRelay }

/-- The link's oldest entry in state `st` for a request with the TAG and CODE goes to state `st'`. -/
def LinkState.mark (ls : LinkState) (tag : Tag) (code : Octet) (st st' : EntryState) : LinkState :=
  let here := fun e : Outstanding => e.st = st && e.req.tag = tag && e.req.code = code
  { ls with outstanding := updateFirst here (·.goTo st') ls.outstanding }

/-- A response to an outstanding entry in state `st` is given to the output, and the entry becomes
ANSWERED (R211). The response of an entry IN_RELAY is a relay's. -/
def State.respond (s : State) (l : Link) (st : EntryState) (tag : Tag) (code : Octet) (r : Result)
    (data : List Octet) : State :=
  let ls := (s.link l).mark tag code st .answered
  s.setLink l { ls with
    output := ls.output ++ [{
      tag := tag, code := code, result := r, data := data, atOnce := false, relayed := st = .inRelay }] }

/-! ## The receive parser (R208) -/

/-- 10 ms, the gap timer, in cycles (DEDUCED, log 15). -/
def linkGap : Nat := 100000

/-- The parser keeps a frame in progress, and its gap timer restarts. -/
def State.rxKeep (s : State) (l : Link) (rx : RxState) : State :=
  s.setLink l { s.link l with rx := rx, gapAt := s.now + linkGap }

/-- The parser returns to HUNT. -/
def State.rxHunt (s : State) (l : Link) : State :=
  s.setLink l { s.link l with rx := .hunt }

/-- The frame in progress is discarded. -/
def State.rxDiscard (s : State) (l : Link) : State := (s.rxHunt l).countDiscard l

/-- A frame whose check holds is handed to the outstanding list. The body of an accepted frame holds
at least TAG and CODE, since LEN is at least 3. -/
def State.frameArrived (s : State) (l : Link) : List Octet → State
  | t1 :: t0 :: code :: args => s.arrive l { tag := t1 ++ t0, code := code, args := args }
  | _ => s

/-- One octet is received on the link's RX line. -/
def State.rxOctet (s : State) (l : Link) (o : Octet) : State :=
  match (s.link l).rx with
  | .hunt => if o = 0xC3 then s.rxKeep l .length else s
  | .length =>
    if 3 ≤ o.toNat ∧ o.toNat ≤ 60 then s.rxKeep l (.body o []) else s.rxDiscard l
  | .body len got =>
    let got' := got ++ [o]
    s.rxKeep l (if len.toNat ≤ got'.length then .check len got' none else .body len got')
  | .check len got none => s.rxKeep l (.check len got (some o))
  | .check len got (some hi) =>
    if crc16 (len :: got) = hi ++ o then (s.rxHunt l).frameArrived l got else s.rxDiscard l

/-! ## The choice between the links (R212) -/

/-- The oldest WAITING entry of a link. -/
def LinkState.oldestWaiting (ls : LinkState) : Option Request :=
  (ls.outstanding.find? (·.st = .waiting)).map (·.req)

/-- The weight of a link. -/
def Params.weight (p : Params) : Link → Nat
  | .a => p.arbWeightA
  | .b => p.arbWeightB

/-- The link that the executor serves next; absent while neither has a WAITING entry. -/
def State.nextLink (s : State) : Option Link :=
  match s.linkA.oldestWaiting, s.linkB.oldestWaiting with
  | none, none => none
  | some _, none => some .a
  | none, some _ => some .b
  | some _, some _ =>
    some (if s.exe.count < s.params.weight s.exe.turn then s.exe.turn else s.exe.turn.other)

/-- The request that the executor takes next, with its link. -/
def State.choice (s : State) : Option (Link × Request) :=
  match s.nextLink with
  | none => none
  | some l => (s.link l).oldestWaiting.map fun q => (l, q)

/-- The turn pointer and the consecutive count after a link is served. -/
def Executor.serve (x : Executor) (l : Link) : Executor :=
  if x.turn = l then { x with count := x.count + 1 } else { x with turn := l, count := 1 }

/-! ## Executing a request (R213) -/

/-- What the owning block makes of a request: an answer, or an entry in the relay queue whose answer
comes when its transaction ends. -/
inductive Acted where
  | answered (r : Result) (data : List Octet) (s : State)
  | relayed (s : State)

/-- A request answered without data. -/
abbrev Acted.plain (r : Result) (s : State) : Acted := .answered r [] s

/-- The response is given or the entry goes to IN_RELAY (R213). -/
def Acted.finish (l : Link) (tag : Tag) (code : Octet) : Acted → State
  | .answered r data s => s.respond l .waiting tag code r data
  | .relayed s => s.setLink l ((s.link l).mark tag code .waiting .inRelay)

/-- The request is WAITING on its link, or it arrives now (R210; DESIGN CHOICE, log 2). -/
def State.ensureTaken (s : State) (l : Link) (q : Request) : State :=
  if (s.link l).outstanding.any (fun e => e.st = .waiting && e.req = q) then s else s.arrive l q

/-- The executor executes the request `q` of link `l`, whose owning block does `act`, if R212 chooses
it. A request that is not on its link's outstanding list arrives first. -/
def State.request (s : State) (l : Link) (q : Request) (act : State → Acted) : State :=
  if s.por then s
  else
    let s1 := s.ensureTaken l q
    if s1.choice = some (l, q) then
      ((act { s1 with exe := s1.exe.serve l }).finish l q.tag q.code).settle
    else s1

end Sys2Proof.Machine
end

