-- ==== Sys2Proof/Machine/Counters.lean ====
section
/-! DEFINITION. The requests of the conditions block and the performance tick (Chapter 10). -/

namespace Sys2Proof.Machine

/-! ## The performance tick (R200) -/

/-- A counter is at or above its threshold, which is not 0. -/
def Conditions.overAt (c : Conditions) (i : Fin 12) : Bool :=
  c.thresholds[i] ≠ 0 && c.thresholds[i] ≤ c.live[i]

/-- The over-threshold set that a tick forms from the live values it latches. -/
def Conditions.over (c : Conditions) : CounterSet :=
  (List.finRange 12).foldl (fun set i => if c.overAt i then set ||| BitVec.twoPow 12 i else set) 0

/-- The live values are latched and set to 0, the set is formed anew, and the sequence number goes up. -/
def Conditions.tick (c : Conditions) : Conditions :=
  { c with
    latched := c.live
    live := Vector.replicate 12 0
    overSet := c.over
    seq := (c.seq + 1) % 65536 }

/-- A performance tick: THRESHOLD if the set is not empty, and TICK. -/
def State.tick (s : State) : State :=
  ({ s with cond := s.cond.tick }.raiseIf (s.cond.over ≠ 0) .threshold).raise .tick

/-- The performance tick of a minute boundary, if TICK_PERIOD divides the minute number (R198). -/
def State.minuteTick (s : State) : State :=
  let minute := if s.tb.timeSet then minuteOfDay s.tb.sec else s.tb.freeMin
  if minute % s.params.tickPeriod = 0 then s.tick else s

/-- TICK_NOW (R199). -/
def actTickNow (s : State) : Acted :=
  let s1 := s.tick
  .answered .ok (octetsBE 2 s1.cond.seq ++ encSet s1.cond.overSet) s1

def execTickNow (l : Link) (tag : Tag) (s : State) : Host.Outcome State Fault Refusal :=
  .next (s.request l ⟨tag, 0x05, []⟩ actTickNow)

/-! ## READ_STATUS and the masks (R191, R193, R195) -/

/-- The values of READ_STATUS on link `l`. -/
def State.statusReport (s : State) (l : Link) : List Octet :=
  encSet s.cond.active ++ encSet (s.cond.view l) ++ encSet (s.cond.mask l) ++ encSet s.cond.faultMask ++
    encFlag (s.alertLine l) ++ encFlag s.faultLine

/-- The view of link `l` is replaced by the active conditions. -/
def State.replaceView (s : State) (l : Link) : State :=
  { s with cond := s.cond.setView l (s.cond.active.setWidth 25) }

/-- READ_STATUS (R191), received on link `l`. -/
def actReadStatus (l : Link) (s : State) : Acted := .answered .ok (s.statusReport l) (s.replaceView l)

def execReadStatus (l : Link) (tag : Tag) (s : State) : Host.Outcome State Fault Refusal :=
  .next (s.request l ⟨tag, 0x01, []⟩ (actReadStatus l))

/-- SET_ALERT_MASK (R193), received on link `l`. -/
def actSetAlertMask (l : Link) (set : BitVec 32) (s : State) : Acted :=
  if 2 ^ 25 ≤ set.toNat then .plain .badArgument s
  else .answered .ok (encSet set) { s with cond := s.cond.setMask l (set.setWidth 25) }

def execSetAlertMask (l : Link) (tag : Tag) (set : BitVec 32) (s : State) :
    Host.Outcome State Fault Refusal :=
  .next (s.request l ⟨tag, 0x02, octetsBE 4 set.toNat⟩ (actSetAlertMask l set))

/-- SET_FAULT_MASK (R195). -/
def actSetFaultMask (set : BitVec 32) (s : State) : Acted :=
  if 2 ^ 13 ≤ set.toNat then .plain .badArgument s
  else .answered .ok (encSet set) { s with cond := { s.cond with faultMask := set.setWidth 13 } }

def execSetFaultMask (l : Link) (tag : Tag) (set : BitVec 32) (s : State) :
    Host.Outcome State Fault Refusal :=
  .next (s.request l ⟨tag, 0x03, octetsBE 4 set.toNat⟩ (actSetFaultMask set))

/-! ## Thresholds and reading the counters (R202, R203) -/

/-- SET_THRESHOLD (R202). -/
def actSetThreshold (id : Octet) (value : BitVec 32) (s : State) : Acted :=
  if 11 < id.toNat then .plain .badArgument s
  else .answered .ok (id :: octetsBE 4 value.toNat)
    { s with cond := { s.cond with
        thresholds := s.cond.thresholds.setIfInBounds id.toNat value.toNat } }

def execSetThreshold (l : Link) (tag : Tag) (id : Octet) (value : BitVec 32) (s : State) :
    Host.Outcome State Fault Refusal :=
  .next (s.request l ⟨tag, 0x06, id :: octetsBE 4 value.toNat⟩ (actSetThreshold id value))

/-- Twelve counter values in order of id. -/
def encCounters (v : Vector Nat 12) : List Octet := v.toList.flatMap (octetsBE 4)

/-- READ_COUNTERS (R203). -/
def actReadCounters (part : Octet) (s : State) : Acted :=
  match part.toNat with
  | 0 =>
    .answered .ok
      (encCounters s.cond.latched ++ octetsBE 2 s.cond.seq ++ encSet s.cond.overSet ++
        encParam s.params.tickPeriod) s
  | 1 => .answered .ok (encCounters s.cond.live) s
  | 2 => .answered .ok (encCounters s.cond.thresholds) s
  | _ => .plain .badArgument s

def execReadCounters (l : Link) (tag : Tag) (part : Octet) (s : State) :
    Host.Outcome State Fault Refusal :=
  .next (s.request l ⟨tag, 0x04, [part]⟩ (actReadCounters part))

end Sys2Proof.Machine
end

