-- ==== Sys2Proof/Machine/Calendar.lean ====
section
/-! DEFINITION. The calendar of Chapter 5 (R92, R93, R94) and civil time (R91). -/

namespace Sys2Proof.Machine

/-- The number of minutes of the day count, 36525 days of 1440 minutes (R91). -/
def centuryMinutes : Nat := 52596000

/-- Year in cycle and day of year of a day number (R92). -/
def yearDay (d : Nat) : Nat × Nat :=
  let r := d % 1461
  if r < 366 then (0, r) else ((r - 366) / 365 + 1, (r - 366) % 365)

/-- The year in cycle of a day number. -/
def yearInCycle (d : Nat) : Nat := (yearDay d).1

/-- The day of year of a day number, 0 for 1 January. -/
def dayOfYear (d : Nat) : Nat := (yearDay d).2

/-- The year of century of a day number (R92). -/
def yearOfCentury (d : Nat) : Nat := 4 * (d / 1461) + yearInCycle d

/-- The starts of the twelve months, in a leap year and in a year of 365 days (R93). -/
def monthStarts (leap : Bool) : List Nat :=
  if leap then [0, 31, 60, 91, 121, 152, 182, 213, 244, 274, 305, 335]
  else [0, 31, 59, 90, 120, 151, 181, 212, 243, 273, 304, 334]

/-- The lengths of the twelve months (R93). -/
def monthLengths (leap : Bool) : List Nat :=
  [31, if leap then 29 else 28, 31, 30, 31, 30, 31, 31, 30, 31, 30, 31]

/-- The day falls in a leap year: its year in cycle is 0 (R92). -/
def inLeapYear (d : Nat) : Bool := yearInCycle d = 0

/-- The month 1..12 of a day number: the last month whose start is at or below the day of year. -/
def monthOf (d : Nat) : Nat :=
  ((monthStarts (inLeapYear d)).filter (· ≤ dayOfYear d)).length

/-- The day of month 1..31 of a day number. -/
def dayOfMonth (d : Nat) : Nat :=
  dayOfYear d - (monthStarts (inLeapYear d)).getD (monthOf d - 1) 0 + 1

/-- The length of the month in which a day falls. -/
def monthLength (d : Nat) : Nat := (monthLengths (inLeapYear d)).getD (monthOf d - 1) 0

/-- The day is the last day of its month. -/
def isLastOfMonth (d : Nat) : Bool := dayOfMonth d = monthLength d

/-- The last day of the month in which a day falls. -/
def lastOfMonth (d : Nat) : Nat := d + (monthLength d - dayOfMonth d)

/-- The weekday of a day number, 1 for Monday (R94). -/
def weekday (d : Nat) : Nat := (d + 5) % 7 + 1

/-- The civil minute number of frame minute `f` under an offset of `q` quarter hours (R91). -/
def civilMinute (f : Nat) (q : Int) : Nat :=
  (((f : Int) + 15 * q) % (centuryMinutes : Int)).toNat

/-- The minute after a linear minute number, 52,595,999 being followed by 0 (R64, R75). -/
def nextMinute (n : Nat) : Nat := (n + 1) % centuryMinutes

end Sys2Proof.Machine
end

