-- ==== Sys2Proof/Machine/Frame.lean ====
section
/-! DEFINITION. The minute frame: its fields in second order (R8), check bits (R10), frame check
(R12), symbol list (R99) and the marks that symbols make (R4). -/

namespace Sys2Proof.Machine

/-- The bits of `v` on `w` places, least significant first, as a field stands in second order (R8). -/
def bitsLE (w v : Nat) : List Bool := (List.range w).map fun i => v.testBit i

/-- The check bit that makes the number of 1s even (R10). -/
def evenParity (bits : List Bool) : Bool := bits.foldl Bool.xor false

/-- A field followed by its check bit. -/
def withParity (bits : List Bool) : List Bool := bits ++ [evenParity bits]

/-- One step of the frame check (R12). -/
def crc4Step (r : BitVec 4) (bit : Bool) : BitVec 4 :=
  if bit ^^ r.getLsbD 3 then (r <<< 1) ^^^ 0b0011#4 else r <<< 1

/-- The frame check over a list of data bits. -/
def crc4 (bits : List Bool) : BitVec 4 := bits.foldl crc4Step 0#4

/-- What a frame says: the sources of its fields (R95..R98). -/
structure Fields where
  nibble : Nat
  low : Bool
  leap : LeapCode
  zoneAnn : Bool
  zone : Nat
  nextZone : Nat
  civDay : Nat
  civMinute : Nat
  quality : Nat
  deriving DecidableEq, Repr

/-- Seconds 1..29 of the frame: the data bits before the half marker. -/
def Fields.firstBits (x : Fields) : List Bool :=
  let minute := x.civMinute % 60
  let hour := x.civMinute / 60
  bitsLE 4 x.nibble ++ [x.low, x.leap = .insert, x.leap = .delete, x.zoneAnn] ++ bitsLE 2 x.zone ++
    withParity (bitsLE 4 (minute % 10) ++ bitsLE 3 (minute / 10)) ++
    withParity (bitsLE 4 (hour % 10) ++ bitsLE 2 (hour / 10)) ++
    bitsLE 4 (dayOfMonth x.civDay % 10)

/-- Seconds 31..48 of the frame. -/
def Fields.dateBits (x : Fields) : List Bool :=
  bitsLE 2 (dayOfMonth x.civDay / 10) ++ bitsLE 3 (weekday x.civDay) ++
    bitsLE 4 (monthOf x.civDay % 10) ++ bitsLE 1 (monthOf x.civDay / 10) ++
    bitsLE 4 (yearOfCentury x.civDay % 10) ++ bitsLE 4 (yearOfCentury x.civDay / 10)

/-- Seconds 31..53 of the frame: the data bits after the half marker. The date check covers seconds
26..29 and 31..49 (R10). -/
def Fields.secondBits (x : Fields) : List Bool :=
  x.dateBits ++ [evenParity (bitsLE 4 (dayOfMonth x.civDay % 10) ++ x.dateBits)] ++
    bitsLE 2 x.quality ++ bitsLE 2 x.nextZone

/-- The 52 data bits, seconds 1..29 and 31..53 (R12). -/
def Fields.dataBits (x : Fields) : List Bool := x.firstBits ++ x.secondBits

/-- The frame check of the frame. -/
def Fields.crc (x : Fields) : BitVec 4 := crc4 x.dataBits

/-- A bit as a symbol (R8). -/
def bitSymbol (b : Bool) : Symbol := if b then .one else .zero

/-- The symbol list of a frame of `length` seconds (R99). -/
def Fields.symbols (x : Fields) (length : Nat) : List Symbol :=
  .minute :: x.firstBits.map bitSymbol ++ .half :: x.secondBits.map bitSymbol ++
    (bitsBE 4 x.crc.toNat).map bitSymbol ++ List.replicate (length - 58) .zero

/-- The intervals of a symbol's mark that begins at instant `t` (R4). INVALID is never sent. -/
def markOf (t : Nat) : Symbol → List MarkInterval
  | .zero => [⟨true, t + 1000000⟩]
  | .one => [⟨true, t + 2000000⟩]
  | .half => [⟨true, t + 4000000⟩]
  | .minute => [⟨true, t + 1000000⟩, ⟨false, t + 2000000⟩, ⟨true, t + 3000000⟩]
  | .invalid => []

end Sys2Proof.Machine
end

