-- ==== Sys2Proof/Machine/Schedule.lean ====
section
/-! DEFINITION. The change schedule (Chapter 4): entries, posting, withdrawal, the processing at each
composition instant, the retired list and the zone table. -/

namespace Sys2Proof.Machine

/-! ## The table (R65, R66, R67, R82) -/

/-- The schedule changes: SCHEDULE_CHANGE is raised and the version goes up by one (R67). -/
def State.scheduleChanged (s : State) : State :=
  { s with sched := { s.sched with version := (s.sched.version + 1) % 65536 } }.raise .scheduleChange

/-- The table order: by E, a leap entry before a ZONE_CHANGE entry at equal E. -/
def Entry.before (x y : Entry) : Bool := x.e < y.e || (x.e = y.e && x.isLeap && !y.isLeap)

/-- The entry takes its place in the table order. -/
def insertEntry (x : Entry) : List Entry → List Entry
  | [] => [x]
  | y :: ys => if x.before y then x :: y :: ys else y :: insertEntry x ys

/-- The entry number after `n`, 255 being followed by 1. -/
def nextNumber (n : Nat) : Nat := if 255 ≤ n then 1 else n + 1

/-- The first number from `n` upward that is not held, within `tries` further tries (R66). -/
def freeNumber (held : List Nat) : Nat → Nat → Nat
  | 0, n => n
  | tries + 1, n => if held.contains n then freeNumber held tries (nextNumber n) else n

/-- The last `n` elements of a list. -/
def keepLast {α : Type} (n : Nat) (xs : List α) : List α := xs.drop (xs.length - n)

/-- Records are added to the retired list, which keeps the newest 8 (R82). -/
def Schedule.addRetired (t : Schedule) (rs : List Retired) : Schedule :=
  { t with retired := keepLast 8 (t.retired ++ rs) }

/-- The record of an entry that retires at a day and second. -/
def Entry.retire (x : Entry) (outcome : RetireOutcome) (by_ : Option Link) (day sec : Nat) : Retired :=
  { number := x.number, kind := x.kind, eDay := x.eDay, eMinute := x.eMinute, newZone := x.newZone,
    origin := x.origin, outcome := outcome, withdrawnBy := by_, atDay := day, atSec := sec }

/-! ## Posting (R68..R72) -/

/-- The lead as normalized (R68). -/
def normalLead (lead : Nat) : Nat := if lead = 0 then 60 else min lead 1440

/-- The first frame minute that the schedule can still affect (R70). -/
def State.firstFrame (s : State) : Nat :=
  s.tb.minute + (if secondOfMinute s.tb.sec < 50 then 1 else 2)

/-- The effective instant of a posting: day and minute of E (R68). -/
def effective (kind : ChangeKind) (day minute : Nat) : Nat × Nat :=
  if kind = .zoneChange then (day, minute) else (day + 1, 0)

/-- The arguments of a posting are valid for broadcast time `now` in linear minutes (R69). -/
def postingValid (kind : ChangeKind) (day minute zone now : Nat) : Bool :=
  let e := effective kind day minute
  day ≤ 36524 && minute ≤ 1439 &&
    (if kind = .zoneChange then zone ≤ 3 else isLastOfMonth day && day ≠ 36524) &&
    now < linearMinute e.1 e.2

/-- A held entry with which a new entry would break the bounds of R65 (R71). -/
def Entry.conflicts (new held : Entry) : Bool :=
  if new.isLeap then held.isLeap && held.e = new.e
  else !held.isLeap &&
    (held.e = new.e || (new.e < held.e + new.lead && held.e < new.e + held.lead))

/-- POST_CHANGE as an entry (R72). -/
def State.newEntry (s : State) (l : Link) (kind : ChangeKind) (day minute zone lead : Nat) : Entry :=
  let e := effective kind day minute
  { number := freeNumber (s.sched.entries.map (·.number)) 17 s.sched.nextNum
    kind := kind
    eDay := e.1
    eMinute := e.2
    newZone := if kind = .zoneChange then some zone else none
    lead := lead
    origin := l
    postedDay := s.tb.day
    postedSec := s.tb.sec
    announcing := false
    altered := if kind = .zoneChange then none else some false }

/-- The new entry is inserted (R66, R72). -/
def State.insertChange (s : State) (x : Entry) : State :=
  { s with sched := { s.sched with
      entries := insertEntry x s.sched.entries
      nextNum := nextNumber x.number } }.scheduleChanged

/-- POST_CHANGE (R68..R72), received on link `l`. -/
def actPostChange (l : Link) (kind : Octet) (day minute : BitVec 16) (zone : Octet) (lead : BitVec 16)
    (s : State) : Acted :=
  if !s.tb.timeSet then .plain .notReady s
  else match kindOf kind with
    | none => .plain .badArgument s
    | some kd =>
      if !postingValid kd day.toNat minute.toNat zone.toNat s.tb.minute then .plain .badArgument s
      else
        let x := s.newEntry l kd day.toNat minute.toNat zone.toNat (normalLead lead.toNat)
        let g := s.firstFrame
        if x.e ≤ g then .plain .tooLate s
        else match s.sched.entries.find? x.conflicts with
          | some y => .answered .conflict (octetsBE 1 y.number) s
          | none =>
            if 16 ≤ s.sched.entries.length then .plain .full s
            else
              .answered .ok
                (octetsBE 1 x.number ++ octetsBE 2 x.lead ++ octetsBE 2 (min x.lead (x.e - g)) ++
                  encFlag (x.e - g < x.lead))
                (s.insertChange x)

def execPostChange (l : Link) (tag : Tag) (kind : Octet) (day minute : BitVec 16) (zone : Octet)
    (lead : BitVec 16) (s : State) : Host.Outcome State Fault Refusal :=
  .next (s.request l
    ⟨tag, 0x50, kind :: octetsBE 2 day.toNat ++ octetsBE 2 minute.toNat ++ zone :: octetsBE 2 lead.toNat⟩
    (actPostChange l kind day minute zone lead))

/-! ## Withdrawal (R73) -/

/-- The entry leaves the table with outcome WITHDRAWN. -/
def State.withdraw (s : State) (l : Link) (x : Entry) : State :=
  let kept := { s.sched with entries := s.sched.entries.filter (fun y => y.number ≠ x.number) }
  let r := x.retire .withdrawn (some l) s.tb.day s.tb.sec
  { s with sched := kept.addRetired [r] }.scheduleChanged

/-- WITHDRAW_CHANGE (R73), received on link `l`. -/
def actWithdrawChange (l : Link) (number : Octet) (s : State) : Acted :=
  if number = 0 then .plain .badArgument s
  else match s.sched.entries.find? (fun x => x.number = number.toNat) with
    | none => .plain .notFound s
    | some x => if x.announcing then .plain .onAir s else .plain .ok (s.withdraw l x)

def execWithdrawChange (l : Link) (tag : Tag) (number : Octet) (s : State) :
    Host.Outcome State Fault Refusal :=
  .next (s.request l ⟨tag, 0x51, [number]⟩ (actWithdrawChange l number))

/-! ## Processing at a composition instant for frame minute `f` (R75..R80) -/

/-- The outcome with which an entry due at `f` retires (R76, R77). -/
def Entry.outcomeAt (x : Entry) (f : Nat) : RetireOutcome :=
  if x.isLeap then (if x.altered = some true then .applied else .missed)
  else if x.e = f then .applied
  else .appliedLate

/-- The state and altered-minute flag of a remaining entry (R78). -/
def Entry.atFrame (x : Entry) (f : Nat) : Entry :=
  { x with
    announcing := x.e ≤ f + x.lead
    altered := x.altered.map fun _ => f + 1 = x.e }

/-- The entries that retire at `f`, in table order. -/
def Schedule.due (t : Schedule) (f : Nat) : List Entry := t.entries.filter (·.e ≤ f)

/-- The entries that remain at `f`. -/
def Schedule.remaining (t : Schedule) (f : Nat) : List Entry := t.entries.filter (fun x => f < x.e)

/-- The zone index after the first two stages (R76, R87). -/
def Schedule.zoneAt (t : Schedule) (f : Nat) : Nat :=
  (t.due f).foldl (fun z x => x.newZone.getD z) (t.pendingZone.getD t.zone)

/-- The first three stages of the processing, at a day and second. -/
def Schedule.process (t : Schedule) (f day sec : Nat) : Schedule :=
  { t.addRetired ((t.due f).map fun x => x.retire (x.outcomeAt f) none day sec) with
    entries := (t.remaining f).map (·.atFrame f)
    zone := t.zoneAt f
    pendingZone := none }

/-- An entry goes from PENDING to ANNOUNCING at `f` (R80). -/
def Schedule.opensAt (t : Schedule) (f : Nat) : Bool :=
  (t.remaining f).any fun x => !x.announcing && (x.atFrame f).announcing

/-- The processing at `f` counts for SCHEDULE_CHANGE (R80). -/
def Schedule.changesAt (t : Schedule) (f : Nat) : Bool :=
  !(t.due f).isEmpty || t.pendingZone.getD t.zone ≠ t.zone || t.zoneAt f ≠ t.zone ||
    (t.remaining f).any fun x => x.announcing ≠ (x.atFrame f).announcing

/-- The whole processing at `f`: a window opening is reported to the keyer. -/
def State.processSchedule (s : State) (f : Nat) : State :=
  let s1 := { s with
    sched := s.sched.process f s.tb.day s.tb.sec
    key := if s.sched.opensAt f then { s.key with windowReport := true } else s.key }
  if s.sched.changesAt f then s1.scheduleChanged else s1

/-- The ANNOUNCING leap entry handed to the composer (R79). -/
def Schedule.leapHandOver (t : Schedule) : Option Entry :=
  t.entries.find? fun x => x.announcing && x.isLeap

/-- The ANNOUNCING ZONE_CHANGE entry handed to the composer (R79). -/
def Schedule.zoneHandOver (t : Schedule) : Option Entry :=
  t.entries.find? fun x => x.announcing && !x.isLeap

/-! ## Reading (R83, R84) -/

def Entry.encode (x : Entry) : List Octet :=
  octetsBE 1 x.number ++ encKind x.kind ++ encDayMinute (x.eDay, x.eMinute) ++
    encOption (octetsBE 1) x.newZone ++ octetsBE 2 x.lead ++ encLink x.origin ++
    encDaySecond (x.postedDay, x.postedSec) ++ encFlag x.announcing ++ encOption encFlag x.altered

def Retired.encode (x : Retired) : List Octet :=
  octetsBE 1 x.number ++ encKind x.kind ++ encDayMinute (x.eDay, x.eMinute) ++
    encOption (octetsBE 1) x.newZone ++ encLink x.origin ++ encOutcome x.outcome ++
    encOption encLink x.withdrawnBy ++ encDaySecond (x.atDay, x.atSec)

def Schedule.summary (t : Schedule) : List Octet :=
  octetsBE 1 t.entries.length ++ octetsBE 1 t.nextNum ++ octetsBE 2 t.version ++
    encFlag t.announcing ++ octetsBE 1 t.zone ++ encOption (octetsBE 1) t.pendingZone ++
    t.offsets.toList.flatMap (signedBE 1)

/-- A refused reading of the schedule: its response carries the version too (R67), alone (log 7). -/
def State.refuseReading (s : State) (r : Result) : Acted :=
  .answered r (octetsBE 2 s.sched.version) s

/-- READ_SCHEDULE (R67, R83). -/
def actReadSchedule (position : Octet) (s : State) : Acted :=
  if position = 0 then .answered .ok s.sched.summary s
  else if 16 < position.toNat then s.refuseReading .badArgument
  else match s.sched.entries[position.toNat - 1]? with
    | none => s.refuseReading .notFound
    | some x =>
      .answered .ok (octetsBE 1 s.sched.entries.length ++ octetsBE 2 s.sched.version ++ x.encode) s

def execReadSchedule (l : Link) (tag : Tag) (position : Octet) (s : State) :
    Host.Outcome State Fault Refusal :=
  .next (s.request l ⟨tag, 0x52, [position]⟩ (actReadSchedule position))

/-- READ_RETIRED (R67, R84). -/
def actReadRetired (position : Octet) (s : State) : Acted :=
  let head := octetsBE 1 s.sched.retired.length ++ octetsBE 2 s.sched.version
  if position = 0 then .answered .ok head s
  else if 8 < position.toNat then s.refuseReading .badArgument
  else match s.sched.retired[position.toNat - 1]? with
    | none => s.refuseReading .notFound
    | some x => .answered .ok (head ++ x.encode) s

def execReadRetired (l : Link) (tag : Tag) (position : Octet) (s : State) :
    Host.Outcome State Fault Refusal :=
  .next (s.request l ⟨tag, 0x53, [position]⟩ (actReadRetired position))

/-! ## The zone table (R86, R87) -/

/-- An offset taken as the nearest end of -48..+56 if it lies outside (R86). -/
def zoneOffset (offset : Int) : Int := max (-48) (min 56 offset)

/-- The zone index may not be written now (R86). -/
def State.zoneInUse (s : State) (index : Nat) : Bool :=
  (s.key.nearTimeCode && (index = s.sched.zone || s.sched.pendingZone = some index)) ||
    s.sched.entries.any fun x => x.announcing && x.newZone = some index

/-- The offset is stored; SCHEDULE_CHANGE is raised if that changes it. -/
def State.writeZone (s : State) (index : Nat) (offset : Int) : State :=
  if s.sched.offset index = offset then s
  else { s with sched := { s.sched with
      offsets := s.sched.offsets.setIfInBounds index offset } }.scheduleChanged

/-- SET_ZONE (R86). -/
def actSetZone (index offset : Octet) (s : State) : Acted :=
  if 3 < index.toNat then .plain .badArgument s
  else if s.zoneInUse index.toNat then .plain .inUse s
  else
    let q := zoneOffset offset.toInt
    .answered .ok (signedBE 1 q) (s.writeZone index.toNat q)

def execSetZone (l : Link) (tag : Tag) (index offset : Octet) (s : State) :
    Host.Outcome State Fault Refusal :=
  .next (s.request l ⟨tag, 0x54, [index, offset]⟩ (actSetZone index offset))

/-- SELECT_ZONE (R87). -/
def actSelectZone (index : Octet) (s : State) : Acted :=
  if 3 < index.toNat then .plain .badArgument s
  else if s.key.nearTimeCode then .plain .onAir s
  else .plain .ok { s with sched := { s.sched with pendingZone := some index.toNat } }

def execSelectZone (l : Link) (tag : Tag) (index : Octet) (s : State) :
    Host.Outcome State Fault Refusal :=
  .next (s.request l ⟨tag, 0x55, [index]⟩ (actSelectZone index))

end Sys2Proof.Machine
end

