-- ==== Sys2Proof/Machine/Synthesizer.lean ====
section
/-! DEFINITION. The carrier synthesizer (Chapter 7). -/

namespace Sys2Proof.Machine

/-! ## Settings and frequencies (R136, R137) -/

/-- The inclusive limits of a band's loop frequency, in Hz. -/
def bandLimits (b : Nat) : Nat × Nat :=
  match b with
  | 0 => (16000000, 32000000)
  | 1 => (32000001, 64000000)
  | _ => (64000001, 128000000)

/-- f_loop of N and K lies in the band, by exact arithmetic. -/
def loopInBand (n k b : Nat) : Bool :=
  (bandLimits b).1 * k ≤ 10000000 * n && 10000000 * n ≤ (bandLimits b).2 * k

/-- The carrier lies in 30,000..150,000 Hz, by exact arithmetic. -/
def carrierInRange (n k p : Nat) : Bool :=
  30000 * k * (256 * 2 ^ p) ≤ 10000000 * n && 10000000 * n ≤ 150000 * k * (256 * 2 ^ p)

/-- The comparison, loop and carrier frequencies in mHz, rounded down (R139, R148). -/
def comparisonMHz (k : Nat) : Nat := 10000000000 / k
def loopMHz (n k : Nat) : Nat := 10000000000 * n / k
def carrierMHz (n k p : Nat) : Nat := 10000000000 * n / (k * (256 * 2 ^ p))

/-- The reasons of a refused SET_SYNTH, coded RANGE 0, BAND 1, LOOP 2, CARRIER 3 (R138, R209). -/
inductive SynthReason where
  | range
  | band
  | loop
  | carrier
  deriving DecidableEq, Repr

def SynthReason.code : SynthReason → Octet
  | .range => 0
  | .band => 1
  | .loop => 2
  | .carrier => 3

/-- The first of the checks 2..5 of R138 that the settings fail. -/
def synthFault (n k p b : Nat) : Option SynthReason :=
  if 16383 < n || 1023 < k || 7 < p || 3 < b then some .range
  else if b = 3 then some .band
  else if !loopInBand n k b then some .loop
  else if !carrierInRange n k p then some .carrier
  else none

/-- SET_SYNTH (R138, R139). -/
def actSetSynth (n k : BitVec 16) (p b : Octet) (s : State) : Acted :=
  let n' := max 1 n.toNat
  let k' := max 1 k.toNat
  if s.synth.st ≠ .off then .plain .inUse s
  else match synthFault n' k' p.toNat b.toNat with
    | some r => .answered .badArgument [r.code] s
    | none =>
      .answered .ok
        (octetsBE 2 n' ++ octetsBE 2 k' ++ octetsBE 1 p.toNat ++ octetsBE 1 b.toNat ++
          octetsBE 5 (loopMHz n' k') ++ octetsBE 5 (carrierMHz n' k' p.toNat))
        { s with synth := { s.synth with n := n', k := k', p := p.toNat, b := b.toNat } }

def execSetSynth (l : Link) (tag : Tag) (n k : BitVec 16) (p b : Octet) (s : State) :
    Host.Outcome State Fault Refusal :=
  .next (s.request l
    ⟨tag, 0x30, octetsBE 2 n.toNat ++ octetsBE 2 k.toNat ++ [p, b]⟩ (actSetSynth n k p b))

/-! ## Running and lock (R140..R147) -/

/-- What CARR_OUT carries (R140); low while POR_N is at 0 (R220). -/
inductive CarrOut where
  | low
  | loop (assured : Bool)
  deriving DecidableEq, Repr

def State.carrOut (s : State) : CarrOut :=
  if s.por then .low
  else match s.synth.st with
    | .off => .low
    | .acquiring => .loop false
    | .locked => .loop true

/-- The loop starts (or restarts its acquisition) with a comparison period that begins now. -/
def Synth.acquire (y : Synth) (now : Nat) : Synth :=
  { y with st := .acquiring, inRun := 0, outRun := 0, last := .none, periodAt := now }

/-- SYNTH_ON (R141). -/
def actSynthOn (s : State) : Acted :=
  match s.synth.st with
  | .off => .plain .ok { s with synth := s.synth.acquire s.now }
  | .acquiring => .plain .ok s
  | .locked => .plain .ok s

def execSynthOn (l : Link) (tag : Tag) (s : State) : Host.Outcome State Fault Refusal :=
  .next (s.request l ⟨tag, 0x31, []⟩ actSynthOn)

/-- The loop stops. -/
def Synth.stop (y : Synth) : Synth := { y with st := .off, inRun := 0, outRun := 0, last := .none }

/-- SYNTH_OFF (R146). -/
def actSynthOff (s : State) : Acted :=
  if s.synth.st = .off then .plain .ok s
  else if s.key.onAir then .plain .onAir s
  else .plain .ok ({ s with synth := s.synth.stop }.raiseIf (s.synth.st = SynthState.locked) .synthLockChange)

def execSynthOff (l : Link) (tag : Tag) (s : State) : Host.Outcome State Fault Refusal :=
  .next (s.request l ⟨tag, 0x32, []⟩ actSynthOff)

/-- The judgement of a phase difference of `num / den` of a comparison period: within tolerance if it
is at most one sixteenth (R142); the difference is an input (DESIGN CHOICE, log 22). -/
def phaseJudgement (num den : Nat) : Judgement := if 16 * num ≤ den then .within else .outside

/-- A judgement acts on the runs and the state (R143, R144). -/
def Synth.judged (y : Synth) (within : Bool) : Synth :=
  match y.st, within with
  | .acquiring, true =>
    if 256 ≤ y.inRun + 1 then { y with st := .locked, inRun := 0, outRun := 0 }
    else { y with inRun := y.inRun + 1 }
  | .acquiring, false => { y with inRun := 0 }
  | .locked, false =>
    if 4 ≤ y.outRun + 1 then { y with st := .acquiring, outRun := 0, inRun := 0 }
    else { y with outRun := y.outRun + 1 }
  | .locked, true => { y with outRun := 0 }
  | .off, _ => y

/-- The synthesizer becomes `y`; an entry to or an exit from LOCKED raises SYNTH_LOCK_CHANGE (R140). -/
def State.setSynth (s : State) (y : Synth) : State :=
  { s with synth := y }.raiseIf (decide (s.synth.st = SynthState.locked) != decide (y.st = SynthState.locked)) .synthLockChange

/-- The comparison period in progress ends K cycles after it began, and the next begins (R142). -/
def State.periodEnd (s : State) (num den : Nat) : State :=
  let s1 := s.waitUntil (s.synth.periodAt + s.synth.k)
  let j := phaseJudgement num den
  s1.setSynth ({ s1.synth with last := j, periodAt := s1.now }.judged (j = Judgement.within))

/-- COMPARISON_PERIOD_END. In OFF there are no comparison periods. -/
def execComparisonPeriodEnd (num den : Nat) (s : State) : Host.Outcome State Fault Refusal :=
  .next (if s.por || s.synth.st = .off then s else (s.periodEnd num den).settle)

/-- The timebase reports a source change (R145). -/
def State.synthSourceChange (s : State) : State :=
  if s.synth.st = .off then s else s.setSynth (s.synth.acquire s.now)

/-! ## Reading (R148) -/

def State.synthReport (s : State) : List Octet :=
  let y := s.synth
  encSynthState y.st ++ octetsBE 2 y.n ++ octetsBE 2 y.k ++ octetsBE 1 y.p ++ octetsBE 1 y.b ++
    octetsBE 5 (comparisonMHz y.k) ++ octetsBE 5 (loopMHz y.n y.k) ++
    octetsBE 5 (carrierMHz y.n y.k y.p) ++
    octetsBE 1 y.inRun ++ octetsBE 1 y.outRun ++ encJudgement y.last ++ encSource s.tb.source

/-- READ_SYNTH (R148). -/
def actReadSynth (s : State) : Acted := .answered .ok s.synthReport s

def execReadSynth (l : Link) (tag : Tag) (s : State) : Host.Outcome State Fault Refusal :=
  .next (s.request l ⟨tag, 0x33, []⟩ actReadSynth)

end Sys2Proof.Machine
end

