-- ==== Sys2Proof/Machine/Timebase.lean ====
section
/-! DEFINITION. The timebase (Chapter 2): sources, discipline, corrections, and the requests and
commands that concern it alone. What a second edge does stands in Machine/Edge.lean. -/

namespace Sys2Proof.Machine

/-! ## The length of a second (R27, R29) -/

/-- The trim share e(k); `/` on a positive divisor rounds toward minus infinity. -/
def trimShare (trim : Int) (k : Nat) : Int := ((k : Int) + 1) * trim / 100 - (k : Int) * trim / 100

/-- `v` limited to `-bound..bound`. -/
def limit (bound : Nat) (v : Int) : Int := max (-(bound : Int)) (min (bound : Int) v)

/-- The correction of an offset (R29). -/
def correctionOf (slew : Nat) (offset : Int) : Int := limit slew (-offset)

/-- The offset of a port's pulse is applied to the second in progress, if that port steers the
timebase (R29, R33): not outside LOCKED, and not while a phase step waits. Corrections to one second
add up (DEDUCED, log 13). -/
def State.correct (s : State) (p : Port) (offset : Int) : State :=
  if s.tb.disc = .locked && s.sel.selection = some p && !s.tb.stepWaiting then
    let c := correctionOf s.params.slew offset
    let limited := s.params.slew < offset.natAbs
    let s1 := if limited && !s.tb.slewing then s.count .slewSeconds 1 else s
    { s1 with tb := { s1.tb with
        length := s1.tb.length + c
        corr := s1.tb.corr + c
        slewing := s1.tb.slewing || limited
        lastCorr := s1.tb.corr + c
        lastSlew := s1.tb.slewing || limited } }
  else s

/-! ## Discipline (R30, R31, R36, R37) -/

/-- The learning window is emptied. -/
def Timebase.emptyWindow (t : Timebase) : Timebase := { t with winCount := 0, winSum := 0 }

/-- The discipline leaves LOCKED (R31). -/
def Timebase.leaveLocked (t : Timebase) : Timebase :=
  { t.emptyWindow with
    begunLocked := false
    stepWaiting := false
    disc := if t.trimValid then .holdover else .free
    holdAge := if t.trimValid then 0 else t.holdAge }

/-- The discipline enters LOCKED on port `p`, or re-enters it: the window is emptied, a step waiting on
the other port is abandoned, and the phase step check of R33 is made (R30). -/
def State.enterLocked (s : State) (p : Port) : State :=
  { s with tb := { s.tb.emptyWindow with
      disc := .locked
      stepWaiting := s.params.slew < (s.port p).lastOffset.natAbs && !s.key.nearTimeCode } }

/-- The timebase follows the ports and the selection as the event leaves them; `old` is the selection
before the event. While time is UNSET, acquisition waits on a QUALIFIED selected port (R36, R37). -/
def State.follow (s : State) (old : Option Port) : State :=
  if s.tb.timeSet then
    match s.steering with
    | none => if s.tb.disc = .locked then { s with tb := s.tb.leaveLocked } else s
    | some p =>
      if s.tb.disc = .locked && s.sel.selection = old then s else s.enterLocked p
  else { s with tb := { s.tb with acq := s.steering } }

/-- The keyer enters TIME_CODE or takes a change to it as pending: a waiting phase step is abandoned
(R34, R119). -/
def State.abandonStep (s : State) : State := { s with tb := { s.tb with stepWaiting := false } }

/-! ## Sources (R19, R20, R21) -/

/-- Counting moves to `src`. -/
def Timebase.sourceChange (t : Timebase) (src : Source) : Timebase :=
  let t1 := { t with source := src, trim := 0, trimValid := false }
  match t.disc with
  | .locked => { t1.emptyWindow with begunLocked := false }
  | .holdover => { t1 with disc := .free }
  | .free => t1

/-- A source change, reported to the synthesizer. -/
def State.sourceChange (s : State) (src : Source) : State :=
  { s with tb := s.tb.sourceChange src }.synthSourceChange

/-- FREQ_IN_ABSENT (R19, R20): counting moves to the standby oscillator at once, or the presence time
is set to 0. -/
def execFreqInAbsent (absentFor dt : Nat) (s : State) : Host.Outcome State Fault Refusal :=
  let s1 := s.wait dt
  let s2 := { s1 with freqFrom := s1.now + absentFor }
  .next (if s2.por || s2.tb.source = .standby then s2 else (s2.sourceChange .standby).settle)

/-- FREQ_IN_RETURN (R20): the presence time reaches 10 s. While counting is on FREQ_IN none is kept. -/
def execFreqInReturn (s : State) : Host.Outcome State Fault Refusal :=
  .next (if s.por || s.tb.source = .station then s
    else ((s.waitUntil (s.freqFrom + 100000000)).sourceChange .station).settle)

/-! ## Quality (R35) -/

def Timebase.quality (t : Timebase) : Nat :=
  match t.disc with
  | .locked => 0
  | .holdover => if t.holdAge ≤ 3600 then 1 else 2
  | .free => 3

/-! ## Requests (R38, R40) -/

/-- STEP_TIME (R38). -/
def actStepTime (day : BitVec 16) (second : BitVec 24) (s : State) : Acted :=
  if s.key.nearTimeCode then .plain .onAir s
  else if 36524 < day.toNat || 86399 < second.toNat then .plain .badArgument s
  else .plain .ok { s with tb := { s.tb with pendingStep := some (day.toNat, second.toNat) } }

def execStepTime (l : Link) (tag : Tag) (day : BitVec 16) (second : BitVec 24) (s : State) :
    Host.Outcome State Fault Refusal :=
  .next (s.request l ⟨tag, 0x11, octetsBE 2 day.toNat ++ octetsBE 3 second.toNat⟩
    (actStepTime day second))

/-- The values of READ_TIME (R40); D and S are returned as 0 while UNSET. -/
def State.timeReport (s : State) : List Octet :=
  let t := s.tb
  let day := if t.timeSet then t.day else 0
  let sec := if t.timeSet then t.sec else 0
  encFlag t.timeSet ++ encDaySecond (day, sec) ++
    octetsBE 1 (secondOfMinute sec) ++ octetsBE 1 t.minLen ++
    encOption (fun h : Handed => octetsBE 1 h.length ++ octetsBE 4 h.minute) t.handed ++
    octetsBE 1 t.freeSec ++ octetsBE 2 t.freeMin ++
    encDiscipline t.disc ++ octetsBE 2 t.holdAge ++ octetsBE 1 t.quality ++
    encSource t.source ++ octetsBE 4 s.presence ++
    signedBE 2 t.trim ++ encFlag t.trimValid ++ octetsBE 1 t.k ++
    octetsBE 1 t.winCount ++ signedBE 3 t.winSum ++
    signedBE 2 t.lastCorr ++ encFlag t.lastSlew ++ encFlag t.stepWaiting ++
    encOption encDaySecond t.pendingStep

/-- READ_TIME (R40). -/
def actReadTime (s : State) : Acted := .answered .ok s.timeReport s

def execReadTime (l : Link) (tag : Tag) (s : State) : Host.Outcome State Fault Refusal :=
  .next (s.request l ⟨tag, 0x10, []⟩ actReadTime)

end Sys2Proof.Machine
end

