-- ==== Sys2Proof/Machine/Composer.lean ====
section
/-! DEFINITION. The frame composer (Chapter 5): the notice texts and the building of a frame record. -/

namespace Sys2Proof.Machine

/-! ## The notice channel (R104, R105, R106) -/

def Composer.text (c : Composer) : Slot → List Octet
  | .s0 => c.text0
  | .s1 => c.text1

def Composer.setText (c : Composer) : Slot → List Octet → Composer
  | .s0, t => { c with text0 := t }
  | .s1, t => { c with text1 := t }

/-- The text of the active slot. -/
def Composer.activeText (c : Composer) : List Octet := c.text c.active

/-- The octet at the notice position: 0x01 at the start octet (R105). -/
def Composer.noticeOctet (c : Composer) : Octet :=
  if c.octIdx < 0 then 0x01 else c.activeText.getD c.octIdx.toNat 0x01

/-- The nibble at the notice position. -/
def Composer.noticeNibble (c : Composer) : Nat :=
  if c.low then c.noticeOctet.toNat % 16 else c.noticeOctet.toNat / 16

/-- A record is reported as taken: the notice position advances from the position in the record (R106). -/
def Composer.taken (c : Composer) (r : FrameRecord) : Composer :=
  if !r.low then { c with octIdx := r.octIdx, low := true }
  else if r.octIdx + 1 < c.activeText.length then { c with octIdx := r.octIdx + 1, low := false }
  else { c with
    active := c.pendingSlot.getD c.active, pendingSlot := none, octIdx := -1, low := false }

/-! ## The building of the frame (R91, R95..R101) -/

/-- The leap code and the length of the frame, from the leap entry handed over (R96). -/
def leapFields : Option Entry → LeapCode × Nat
  | none => (.none, 60)
  | some x =>
    let altered := x.altered = some true
    if x.kind = .leapInsert then (.insert, if altered then 61 else 60)
    else (.delete, if altered then 59 else 60)

/-- What the frame for minute `f` says, after the schedule processing (R91, R95..R98). -/
def State.frameFields (s : State) (f : Nat) : Fields :=
  let c := civilMinute f (s.sched.offset s.sched.zone)
  { nibble := s.comp.noticeNibble
    low := s.comp.low
    leap := (leapFields s.sched.leapHandOver).1
    zoneAnn := s.sched.zoneHandOver.isSome
    zone := s.sched.zone
    nextZone := (s.sched.zoneHandOver.bind (·.newZone)).getD s.sched.zone
    civDay := c / 1440
    civMinute := c % 1440
    quality := s.tb.quality }

/-- The frame record for minute `f` (R99, R100). -/
def State.frameRecord (s : State) (f : Nat) : FrameRecord :=
  let x := s.frameFields f
  let length := (leapFields s.sched.leapHandOver).2
  { day := f / 1440
    minute := f % 1440
    civDay := x.civDay
    civMinute := x.civMinute
    length := length
    syms := x.symbols length
    octIdx := s.comp.octIdx
    low := s.comp.low
    leap := x.leap
    zoneAnn := x.zoneAnn
    zone := x.zone
    nextZone := x.nextZone
    quality := x.quality
    crc := x.crc
    announcing := s.sched.leapHandOver.toList.map (·.number) ++
      s.sched.zoneHandOver.toList.map (·.number) }

/-- The record goes into the next-frame slot and its length to the timebase (R101). -/
def State.handOver (s : State) (f : Nat) : State :=
  let r := s.frameRecord f
  { s with
    comp := { s.comp with next := some r }
    tb := { s.tb with handed := some { length := r.length, minute := f } } }

/-! ## Requests (R107, R108, R109) -/

/-- An octet that a notice text may hold (R15). -/
def noticeOctetValid (o : Octet) : Bool := 0x20 ≤ o.toNat && o.toNat ≤ 0x7E

/-- WRITE_NOTICE (R107). -/
def actWriteNotice (slot : Octet) (text : List Octet) (s : State) : Acted :=
  match slotOf slot with
  | none => .plain .badArgument s
  | some x =>
    if x = s.comp.active then .plain .inUse s
    else if 32 < text.length || !text.all noticeOctetValid then .plain .badArgument s
    else .plain .ok { s with comp := s.comp.setText x text }

def execWriteNotice (l : Link) (tag : Tag) (slot : Octet) (text : List Octet) (s : State) :
    Host.Outcome State Fault Refusal :=
  .next (s.request l ⟨tag, 0x60, slot :: encString text⟩ (actWriteNotice slot text))

/-- SELECT_NOTICE (R108). -/
def actSelectNotice (slot : Octet) (s : State) : Acted :=
  match slotOf slot with
  | none => .plain .badArgument s
  | some x =>
    .plain .ok { s with comp := { s.comp with
        pendingSlot := if x = s.comp.active then none else some x } }

def execSelectNotice (l : Link) (tag : Tag) (slot : Octet) (s : State) :
    Host.Outcome State Fault Refusal :=
  .next (s.request l ⟨tag, 0x61, [slot]⟩ (actSelectNotice slot))

/-- The text of a slot with the notice state and the next-frame slot summary (R109). -/
def Composer.report (c : Composer) (x : Slot) : List Octet :=
  encString (c.text x) ++ encSlot c.active ++ encOption encSlot c.pendingSlot ++
    signedBE 1 c.octIdx ++ encFlag c.low ++
    encOption (fun r : FrameRecord =>
      encDayMinute (r.day, r.minute) ++ octetsBE 1 r.length ++ encLeap r.leap) c.next

/-- The received notice buffer and the state of its assembly (R180). -/
def Monitor.noticeReport (m : Monitor) : List Octet :=
  encString m.rxText ++ octetsBE 2 m.rxCycles ++ encFlag m.collecting ++
    octetsBE 1 m.octets.length ++ encOption (fun h : BitVec 4 => octetsBE 1 h.toNat) m.heldHigh

/-- READ_NOTICE (R109, R180). -/
def actReadNotice (part : Octet) (s : State) : Acted :=
  match part.toNat with
  | 0 => .answered .ok (s.comp.report .s0) s
  | 1 => .answered .ok (s.comp.report .s1) s
  | 2 => .answered .ok s.mon.noticeReport s
  | _ => .plain .badArgument s

def execReadNotice (l : Link) (tag : Tag) (part : Octet) (s : State) :
    Host.Outcome State Fault Refusal :=
  .next (s.request l ⟨tag, 0x62, [part]⟩ (actReadNotice part))

end Sys2Proof.Machine
end

