-- ==== Sys2Proof/Config.lean ====
section
/-! DEFINITION. The free values: what the manual leaves open and the machine nevertheless produces.
Nothing in Lean can evaluate them, so a statement about one holds whatever it is. -/

namespace Sys2Proof

/-- The last delay of a mark that opens before the first second edge after a reset. R171 counts the
delay from the latest second edge at or before the mark, and R41 says the start of counting is no
edge, so the manual states no value here (only the range 0..999 of R166). The argument is
`State.freeCount`, the number of free values drawn before. Assumption log entry 5. -/
opaque Config.delayBeforeFirstEdge : Nat → Fin 1000

end Sys2Proof
end

