-- ==== Sys2Proof/Machine/Monitor.lean ====
section
/-! DEFINITION. The off-air monitor (Chapter 9): marks, frames and their judgement, loss of frame, the
received notice, the pattern analyzer, and the commands that concern it. -/

namespace Sys2Proof.Machine

/-! ## Marks (R169) -/

/-- The width lies within 30 ms of `nominal` cycles. -/
def widthNear (nominal w : Nat) : Bool := nominal - 300000 ≤ w && w ≤ nominal + 300000

/-- The symbol of a mark that a quiet close ended, from its interval widths. -/
def classify : List Nat → Symbol
  | [w] =>
    if widthNear 1000000 w then .zero
    else if widthNear 2000000 w then .one
    else if widthNear 4000000 w then .half
    else .invalid
  | [u, v, w] =>
    if widthNear 1000000 u && widthNear 1000000 v && widthNear 1000000 w then .minute
    else .invalid
  | _ => .invalid

/-! ## The checks of a frame (R174) -/

/-- A symbol taken as a data bit. -/
def symbolBit (x : Symbol) : Bool := x = .one

/-- The symbols at positions `i`..`j`. -/
def positions (i j : Nat) (syms : List Symbol) : List Symbol := (syms.drop i).take (j + 1 - i)

/-- The bits at positions `i`..`j`. -/
def bitsAt (i j : Nat) (syms : List Symbol) : List Bool := (positions i j syms).map symbolBit

/-- Position 30 holds H and every other position from 1 onward 0 or 1. -/
def markersHold (syms : List Symbol) : Bool :=
  syms[30]? = some .half &&
    ((positions 1 29 syms) ++ syms.drop 31).all fun x => x = .zero || x = .one

/-- The three groups of check bits hold an even number of 1s. -/
def parityHolds (syms : List Symbol) : Bool :=
  !evenParity (bitsAt 11 18 syms) && !evenParity (bitsAt 19 25 syms) &&
    !evenParity (bitsAt 26 29 syms ++ bitsAt 31 49 syms)

/-- The frame check over the data bits equals positions 54..57. -/
def crcHolds (syms : List Symbol) : Bool :=
  bitsBE 4 (crc4 (bitsAt 1 29 syms ++ bitsAt 31 53 syms)).toNat = bitsAt 54 57 syms

/-- The first check of R174 that a collection fails; `none` for a good frame. -/
def frameFault (c : Collection) : Option BadReason :=
  let length := c.syms.length + c.excess
  if !(59 ≤ length && length ≤ 61) then some .length
  else if c.syms.contains .invalid then some .invalidSymbol
  else if !markersHold c.syms then some .marker
  else if !parityHolds c.syms then some .parity
  else if !crcHolds c.syms then some .crc
  else none

/-- The number of differing symbols between a heard frame and a record (R175). -/
def differing (heard sent : List Symbol) : Nat :=
  (heard.zip sent).countP (fun p => p.1 ≠ p.2) +
    ((heard.length - sent.length) + (sent.length - heard.length))

/-- The record that a frame is matched against: the latest whose second-0 edge is at or before the
start instant of the frame's M (R175). -/
def Keyer.recordAt (k : Keyer) (start : Nat) : Option Keyed :=
  (k.history.filter (·.edgeAt ≤ start)).getLast?

/-! ## The received notice (R179) -/

/-- Collecting stops and the list is emptied. -/
def Monitor.stopCollecting (m : Monitor) : Monitor := { m with collecting := false, octets := [] }

/-- The nibble of a frame is lost. -/
def Monitor.loseNibble (m : Monitor) : Monitor := { m.stopCollecting with heldHigh := none }

/-- A whole octet has been heard. -/
def Monitor.noticeOctet (m : Monitor) (o : Octet) : Monitor :=
  if o = 0x01 then
    let m' := if m.collecting then
        { m with rxText := m.octets, rxCycles := (m.rxCycles + 1) % 65536 }
      else m
    { m' with octets := [], collecting := true }
  else if 0x20 ≤ o.toNat && o.toNat ≤ 0x7E && m.collecting && m.octets.length < 32 then
    { m with octets := m.octets ++ [o] }
  else m.stopCollecting

/-- The nibble of a good frame at its position: `low` is the symbol at position 5. -/
def Monitor.nibble (m : Monitor) (low : Bool) (v : BitVec 4) : Monitor :=
  match low, m.heldHigh with
  | false, none => { m with heldHigh := some v }
  | false, some _ => { m.stopCollecting with heldHigh := some v }
  | true, none => m.stopCollecting
  | true, some h => { m with heldHigh := none }.noticeOctet (h ++ v)

/-- The nibble that a good frame carries at positions 1..4, weights 1, 2, 4 and 8. -/
def heardNibble (syms : List Symbol) : BitVec 4 :=
  BitVec.ofNat 4 ((bitsAt 1 4 syms).foldr (fun b v => 2 * v + b.toNat) 0)

/-- The nibble position that a good frame carries at position 5. -/
def heardLow (syms : List Symbol) : Bool := symbolBit (syms.getD 5 .zero)

/-! ## Verdicts and loss of frame (R176, R178) -/

/-- The two runs act on a verdict, with the parameters LOF_SET and LOF_CLEAR. -/
def Monitor.lossOfFrame (m : Monitor) (p : Params) (matched : Bool) : Monitor :=
  match m.frameLost, matched with
  | false, true => { m with bad := 0 }
  | false, false =>
    if p.lofSet ≤ m.bad + 1 then { m with frameLost := true, bad := 0, good := 0 }
    else { m with bad := m.bad + 1 }
  | true, true =>
    if p.lofClear ≤ m.good + 1 then { m with frameLost := false, bad := 0, good := 0 }
    else { m with good := m.good + 1 }
  | true, false => { m with good := 0 }

/-- MATCHED. -/
def LastFrame.matchedVerdict (f : LastFrame) : Bool := f.reason = none

/-- A verdict is recorded and counted, and acts on the runs. -/
def State.verdict (s : State) (f : LastFrame) : State :=
  let s1 := s.count (if f.matchedVerdict then .monFramesGood else .monFramesBad) 1
  { s1 with mon := { s1.mon with lastFrame := some f }.lossOfFrame s1.params f.matchedVerdict }

/-- The last frame record of a good frame (R176, R177). -/
def State.judgeGood (s : State) (c : Collection) : LastFrame :=
  let extra := s.mon.inject.toNat
  match s.key.recordAt c.start.at_ with
  | none =>
    { reason := some .noRecord, syms := c.syms, excess := c.excess, start := c.start, matched := none,
      differing := extra, injected := s.mon.inject }
  | some k =>
    let d := differing c.syms k.record.syms + extra
    { reason := if d = 0 then none else some .mismatch, syms := c.syms, excess := c.excess,
      start := c.start, matched := some (k.record.day, k.record.minute), differing := d,
      injected := s.mon.inject }

/-- A closed collection is judged (R174..R179). -/
def State.judge (s : State) (c : Collection) : State :=
  match frameFault c with
  | some r =>
    let s1 := s.verdict
      { reason := some r, syms := c.syms, excess := c.excess, start := c.start, matched := none,
        differing := 0, injected := false }
    { s1 with mon := s1.mon.loseNibble }
  | none =>
    let f := s.judgeGood c
    let s1 := (s.verdict f).count .monSymbolErrors f.differing
    let s2 := s1.raiseIf (!f.matchedVerdict) .monitorMismatch
    { s2 with mon := { s2.mon with inject := false }.nibble (heardLow c.syms) (heardNibble c.syms) }

/-! ## The frame assembler (R172, R173) -/

/-- 62 s, the frame timer, in cycles. -/
def frameTime : Nat := 620000000

/-- A symbol other than M is added to a collection. -/
def Collection.add (c : Collection) (x : Symbol) : Collection :=
  if c.syms.length < 62 then { c with syms := c.syms ++ [x] }
  else { c with excess := min 255 (c.excess + 1) }

/-- A symbol with its start instant is handed to the frame assembler. -/
def State.assemble (s : State) (x : Symbol) (start : Instant) : State :=
  if x = .minute then
    let s1 := match s.mon.coll with
      | some c => s.judge c
      | none => s
    { s1 with mon := { s1.mon with
        coll := some { start := start, syms := [.minute], excess := 0 }
        timer := some (s1.now + frameTime) } }
  else { s with mon := { s.mon with coll := s.mon.coll.map (·.add x) } }

/-! ## The pattern analyzer (R181, R182) -/

/-- The generator that fifteen symbols give: the first at stage 15, the fifteenth at stage 1. -/
def genOfSymbols (syms : List Symbol) : BitVec 15 :=
  BitVec.ofNat 15 (syms.foldl (fun v x => 2 * v + (symbolBit x).toNat) 0)

/-- A symbol in HUNTING. -/
def Monitor.huntSymbol (m : Monitor) (x : Symbol) : Monitor :=
  if x = .zero || x = .one then
    let list := m.hunt ++ [x]
    let list := if list.length = 16 then list.tail else list
    if list.length = 15 && list.contains .one then
      { m with gen := genStep^[15] (genOfSymbols list), hunt := [], correct := 0, an := .checking }
    else { m with hunt := list }
  else { m with hunt := [] }

/-- A symbol in CHECKING. -/
def Monitor.checkSymbol (m : Monitor) (x : Symbol) : Monitor :=
  let m' := { m with gen := genStep m.gen }
  if x = genSymbol m.gen then
    if 16 ≤ m.correct + 1 then { m' with correct := 16, an := .inSync, miss := 0 }
    else { m' with correct := m.correct + 1 }
  else { m' with an := .hunting, hunt := [] }

/-- A symbol in IN_SYNC. -/
def Monitor.syncSymbol (m : Monitor) (x : Symbol) : Monitor :=
  let m' := { m with gen := genStep m.gen }
  if x = genSymbol m.gen then { m' with miss := 0 }
  else if 4 ≤ m.miss + 1 then { m' with miss := m.miss + 1, an := .hunting, hunt := [] }
  else { m' with miss := m.miss + 1 }

/-- A symbol is handed to the analyzer; a miss in IN_SYNC is counted. -/
def State.analyze (s : State) (x : Symbol) : State :=
  match s.mon.an with
  | .hunting => { s with mon := s.mon.huntSymbol x }
  | .checking => { s with mon := s.mon.checkSymbol x }
  | .inSync =>
    let s1 := if x = genSymbol s.mon.gen then s else s.count .monPatternErrors 1
    { s1 with mon := s1.mon.syncSymbol x }

/-! ## Handing a mark on (R170) -/

/-- A classified mark becomes the last symbol and, unless stale, goes on by the keyer mode. -/
def State.handOn (s : State) (m : OpenMark) (x : Symbol) : State :=
  let s1 := { s with mon := { s.mon with lastSymbol := some x } }
  if m.stale then s1
  else match s1.key.mode with
    | .timeCode => s1.assemble x m.start
    | .testPattern => s1.analyze x
    | .offAir => s1
    | .carrierOnly => s1

/-! ## Mode changes and MONITOR_ENABLE (R167, R184) -/

/-- The assembler, the runs, FRAME_LOST, the injection flag and the notice assembly are cleared. -/
def Monitor.leaveTimeCode (m : Monitor) : Monitor :=
  { m.loseNibble with
    coll := none, timer := none, bad := 0, good := 0, frameLost := false, inject := false }

/-- The analyzer is in HUNTING with an empty list; its runs keep their values (DEDUCED, log 21). -/
def Monitor.restHunting (m : Monitor) : Monitor := { m with an := .hunting, hunt := [] }

/-- An open mark is made stale (R170). -/
def Detector.makeStale : Detector → Detector
  | .mark m => .mark { m with stale := true }
  | .idle => .idle
  | .stuck => .stuck

/-- The monitor acts on a change of mode from `old` to `new`. -/
def Monitor.modeChange (m : Monitor) (p : Params) (now : Nat) (old new : Mode) : Monitor :=
  let m1 := if old = .timeCode then m.leaveTimeCode else m
  let m2 := if old = .testPattern || new = .testPattern then m1.restHunting else m1
  let m3 := if new = .timeCode && p.monitorEnable then { m2 with timer := some (now + frameTime) }
    else m2
  { m3 with det := m3.det.makeStale }

/-- MONITOR_ENABLE is turned off. -/
def Monitor.turnOff (m : Monitor) : Monitor := { m.leaveTimeCode.restHunting with det := .idle }

/-- The detector as it starts: STUCK if MON_IN is 1. -/
def detectorAtStart (monIn : Bool) : Detector := if monIn then .stuck else .idle

/-- MONITOR_ENABLE is turned on, or the monitor is reset under a keyer that runs on (R167, R187). -/
def Monitor.turnOn (m : Monitor) (monIn : Bool) (now : Nat) (mode : Mode) : Monitor :=
  { m with
    det := detectorAtStart monIn
    timer := if mode = .timeCode then some (now + frameTime) else m.timer }

/-! ## Commands on MON_IN (R168, R171) -/

/-- The delay of a mark that opens now, in milliseconds (R171), from the latest edge made so far. An edge
that is made later at this very instant sets it to 0 (Monitor.atEdge). -/
def State.markDelay (s : State) : Nat :=
  if s.tb.edgeMade then min 999 ((s.now - s.tb.edgeAt) / 10000)
  else (Config.delayBeforeFirstEdge s.freeCount).val

/-- A mark opens: its delay is taken, and a free value is counted as drawn if there was no edge. -/
def State.openMark (s : State) : State :=
  { s with
    freeCount := if s.tb.edgeMade then s.freeCount else s.freeCount + 1
    mon := { s.mon with
      lastDelay := s.markDelay
      delayAt := some s.now
      det := .mark { start := s.instant, widths := [], since := s.now, stale := false } } }

/-- A second edge begins the second of `x`. A mark that opened at that very instant starts with that second
(DEDUCED, log 30). -/
def Detector.atEdge (x : Instant) : Detector → Detector
  | .mark m => .mark { m with start := if m.start.at_ = x.at_ then x else m.start }
  | .idle => .idle
  | .stuck => .stuck

/-- A second edge begins the second of `x`. It is the latest edge at or before a delay taken at that very
instant, which is 0 (R171). -/
def Monitor.atEdge (m : Monitor) (x : Instant) : Monitor :=
  { m with
    lastDelay := if m.delayAt = some x.at_ then 0 else m.lastDelay
    det := m.det.atEdge x }

/-- The interval in progress is closed. -/
def OpenMark.closeInterval (m : OpenMark) (now : Nat) : OpenMark :=
  { m with widths := m.widths ++ [now - m.since], since := now }

/-- MON_IN goes to `level` where it was at the other level. While POR_N is at 0 and while the monitor
is off, only the line changes. -/
def State.monLine (s : State) (level : Bool) : State :=
  let s1 := { s with monIn := level }
  if s1.por || !s1.params.monitorEnable then s1
  else match s1.mon.det with
    | .idle => if level then s1.openMark else s1
    | .mark m => { s1 with mon := { s1.mon with det := .mark (m.closeInterval s1.now) } }
    | .stuck => if level then s1 else { s1 with mon := { s1.mon with det := .idle } }

/-- MON_IN_RISE (R168). -/
def execMonInRise (dt : Nat) (s : State) : Host.Outcome State Fault Refusal :=
  let s1 := s.wait dt
  .next (if s1.monIn then s1 else s1.monLine true)

/-- MON_IN_FALL (R168). -/
def execMonInFall (dt : Nat) (s : State) : Host.Outcome State Fault Refusal :=
  let s1 := s.wait dt
  .next (if s1.monIn then s1.monLine false else s1)

/-- 150 ms, after which a quiet line closes a mark. -/
def quietTime : Nat := 1500000

/-- 1 s, after which a mark closes long. -/
def longTime : Nat := 10000000

/-- The quiet close of an open mark whose line has been 0 since it last fell (R168, R169). -/
def State.quietClose (s : State) (m : OpenMark) : State :=
  let s1 := s.waitUntil (m.since + quietTime)
  { s1 with mon := { s1.mon with det := .idle } }.handOn m (classify m.widths)

/-- The long close of an open mark: it is INVALID whatever its list (R168, R169). -/
def State.longClose (s : State) (m : OpenMark) : State :=
  let s1 := s.waitUntil (m.start.at_ + longTime)
  { s1 with mon := { s1.mon with det := detectorAtStart s1.monIn } }.handOn m .invalid

/-- MARK_QUIET_CLOSE. Without an open mark, or while the line is 1, there is none. -/
def execMarkQuietClose (s : State) : Host.Outcome State Fault Refusal :=
  .next (match s.mon.det with
    | .mark m => if s.por || s.monIn then s else (s.quietClose m).settle
    | .idle => s
    | .stuck => s)

/-- MARK_LONG_CLOSE. Without an open mark there is none. -/
def execMarkLongClose (s : State) : Host.Outcome State Fault Refusal :=
  .next (match s.mon.det with
    | .mark m => if s.por then s else (s.longClose m).settle
    | .idle => s
    | .stuck => s)

/-- The frame timer runs out at instant `t` (R173, R176). -/
def State.frameTimeout (s : State) (t : Nat) : State :=
  let s1 := s.waitUntil t
  let s2 := s1.verdict
    { reason := some .timeout, syms := [], excess := 0, start := s1.instant, matched := none,
      differing := 0, injected := false }
  { s2 with mon := { s2.mon.loseNibble with coll := none, timer := some (s2.now + frameTime) } }

/-- FRAME_TIMER_EXPIRY. While the timer is stopped there is none. -/
def execFrameTimerExpiry (s : State) : Host.Outcome State Fault Refusal :=
  .next (match s.mon.timer with
    | some t => if s.por then s else (s.frameTimeout t).settle
    | none => s)

/-! ## Requests (R177, R185) -/

/-- INJECT_MONITOR_ERROR (R177). -/
def actInjectMonitorError (s : State) : Acted :=
  if s.key.mode ≠ .timeCode || !s.params.monitorEnable then .plain .notReady s
  else .plain .ok { s with mon := { s.mon with inject := true } }

def execInjectMonitorError (l : Link) (tag : Tag) (s : State) : Host.Outcome State Fault Refusal :=
  .next (s.request l ⟨tag, 0x71, []⟩ actInjectMonitorError)

/-- The summary of the monitor (R185, part 0). In SEARCHING, where there is no collection, the number of
symbols and the excess count are two octets 0 (DESIGN CHOICE, log 7). -/
def State.monitorSummary (s : State) : List Octet :=
  let m := s.mon
  encParam s.params.monitorEnable.toNat ++ encDetector m.det ++ encOption encSymbol m.lastSymbol ++
    octetsBE 2 m.lastDelay ++
    encFlag m.coll.isSome ++ octetsBE 1 ((m.coll.map (·.syms.length)).getD 0) ++
    octetsBE 1 ((m.coll.map (·.excess)).getD 0) ++
    encOption (fun t => octetsBE 4 (t - s.now)) m.timer ++
    encFlag m.frameLost ++ octetsBE 1 m.bad ++ octetsBE 1 m.good ++
    encParam s.params.lofSet ++ encParam s.params.lofClear ++ encFlag m.inject ++
    encAnalyzer m.an ++ octetsBE 1 m.hunt.length ++ octetsBE 1 m.correct ++ octetsBE 1 m.miss ++
    octetsBE 2 m.gen.toNat ++ encFlag s.patternUnsync

/-- The last frame record in full (R176, R185 part 1). -/
def LastFrame.encode (f : LastFrame) : List Octet :=
  encFlag (!f.matchedVerdict) ++ encOption encReason f.reason ++
    octetsBE 2 (f.syms.length + f.excess) ++ encSymbols 4 f.syms ++ octetsBE 1 f.excess ++
    encDaySecond (f.start.day, f.start.sec) ++ encOption encDayMinute f.matched ++
    octetsBE 1 f.differing ++ encFlag f.injected

/-- READ_MONITOR (R185). -/
def actReadMonitor (part : Octet) (s : State) : Acted :=
  match part.toNat with
  | 0 => .answered .ok s.monitorSummary s
  | 1 => .answered .ok (encOption LastFrame.encode s.mon.lastFrame) s
  | _ => .plain .badArgument s

def execReadMonitor (l : Link) (tag : Tag) (part : Octet) (s : State) :
    Host.Outcome State Fault Refusal :=
  .next (s.request l ⟨tag, 0x70, [part]⟩ (actReadMonitor part))

end Sys2Proof.Machine
end

