-- ==== Sys2Proof/Machine/Keyer.lean ====
section
/-! DEFINITION. The keyer (Chapter 6): modes and their changes, deferral, maintenance and resume, the
minute boundary, the keying of frames, and the signal (Chapter 1). -/

namespace Sys2Proof.Machine

/-! ## The signal (R1) -/

/-- CARR_EN: asserted in the on-air modes; deasserted while POR_N is at 0 (R220). -/
def State.carrierEnable (s : State) : Bool := !s.por && s.key.onAir

/-- The carrier is in a reduced interval of a mark. -/
def Keyer.inReduced (k : Keyer) : Bool := (k.mark.head?.map (·.reduced)).getD false

/-- The amplitude command: 0 off air, else the full or the reduced level in use. -/
def State.amplitude (s : State) : Nat :=
  if !s.carrierEnable then 0 else if s.key.inReduced then s.key.reduced else s.key.full

/-- MARK_INTERVAL_END (R4, R5): the interval in progress has run its full count. -/
def execMarkIntervalEnd (s : State) : Host.Outcome State Fault Refusal :=
  .next (match s.key.mark with
    | [] => s
    | i :: rest =>
      if s.por then s
      else
        let s1 := s.waitUntil i.endsAt
        { s1 with key := { s1.key with mark := rest } })

/-! ## Changes of mode (R113, R115, R127 step 4) -/

/-- The on-air checks of a move from the present mode into `m` (R115). -/
def State.onAirChecks (s : State) (m : Mode) : Bool :=
  (s.key.onAir || (s.synth.st = .locked && s.transmitterReady)) && (m ≠ .timeCode || s.tb.timeSet)

/-- What the keyer itself keeps and drops when it goes from mode `old` to mode `m` (R18, R130). -/
def Keyer.enter (k : Keyer) (m : Mode) : Keyer :=
  { k with
    mode := m
    history := if k.mode = .timeCode then [] else k.history
    current := if k.mode = .timeCode then none else k.current
    gen := if m = .testPattern then genSeed else k.gen }

/-- The mode becomes `m`. A change raises MODE_CHANGE and is reported to the monitor; entering TIME_CODE
abandons a waiting phase step (R34). -/
def State.changeMode (s : State) (m : Mode) : State :=
  if s.key.mode = m then s
  else
    let s1 := if m = .timeCode then s.abandonStep else s
    { s1 with
      key := s1.key.enter m
      mon := s1.mon.modeChange s1.params s1.now s1.key.mode m }.raise .modeChange

/-- The pending mode becomes `m`; a change to TIME_CODE abandons a waiting phase step (R34, R119). -/
def State.setPendingMode (s : State) (m : Mode) : State :=
  let s1 := if m = .timeCode then s.abandonStep else s
  { s1 with key := { s1.key with pendingMode := some m } }

/-- The waiting off-air request is removed, and OFF_AIR_DEFERRED clears with it (R122). -/
def Keyer.dropOffReq (k : Keyer) : Keyer := { k with offReq := none, deferred := false }

/-! ## Requests (R116, R117, R120, R121, R123, R126) -/

/-- SET_MODE of an on-air mode (R116, R117). -/
def State.requestOnAir (s : State) (m : Mode) : Acted :=
  if s.key.mode = m then
    .plain .ok { s with key := { s.key.dropOffReq with pendingMode := none } }
  else if !s.onAirChecks m then .plain .notReady s
  else
    let k := { s.key with maint := none }.dropOffReq
    .plain .pending ({ s with key := k }.setPendingMode m)

/-- An off-air request of the keyer on air: it waits, not deferred, in place of any other (R120, R121).
OFF_AIR_DEFERRED stays as it was (R122). -/
def Keyer.waitOffAir (k : Keyer) (until_ : Option (Nat × Nat)) : Keyer :=
  { k with pendingMode := none, offReq := some { until_ := until_, deferred := false } }

/-- SET_MODE (R116, R117, R120). -/
def actSetMode (mode : Octet) (s : State) : Acted :=
  match modeOf mode with
  | none => .plain .badArgument s
  | some .offAir =>
    if s.key.onAir then .plain .pending { s with key := s.key.waitOffAir none }
    else .plain .ok { s with key := { s.key with pendingMode := none, maint := none } }
  | some .carrierOnly => s.requestOnAir .carrierOnly
  | some .timeCode => s.requestOnAir .timeCode
  | some .testPattern => s.requestOnAir .testPattern

def execSetMode (l : Link) (tag : Tag) (mode : Octet) (s : State) :
    Host.Outcome State Fault Refusal :=
  .next (s.request l ⟨tag, 0x40, [mode]⟩ (actSetMode mode))

/-- The carrier is cut: OFF_AIR at once, with nothing pending (R126). -/
def State.kill (s : State) : State :=
  let s1 := s.changeMode .offAir
  { s1 with key := { s1.key.dropOffReq with
      pendingMode := none, maint := none, current := none, mark := [] } }

/-- KILL_CARRIER (R126). -/
def actKillCarrier (s : State) : Acted := .plain .ok s.kill

def execKillCarrier (l : Link) (tag : Tag) (s : State) : Host.Outcome State Fault Refusal :=
  .next (s.request l ⟨tag, 0x41, []⟩ actKillCarrier)

/-- SET_HOLD (R123). -/
def actSetHold (setting : Octet) (s : State) : Acted :=
  match settingOf setting with
  | none => .plain .badArgument s
  | some b => .plain .ok { s with key := { s.key with hold := b } }

def execSetHold (l : Link) (tag : Tag) (setting : Octet) (s : State) :
    Host.Outcome State Fault Refusal :=
  .next (s.request l ⟨tag, 0x42, [setting]⟩ (actSetHold setting))

/-- MAINTENANCE (R121). -/
def actMaintenance (endDay endMinute : BitVec 16) (s : State) : Acted :=
  let e := linearMinute endDay.toNat endMinute.toNat
  if 36524 < endDay.toNat || 1439 < endMinute.toNat then .plain .badArgument s
  else if !s.tb.timeSet then .plain .notReady s
  else if e ≤ s.tb.minute || s.tb.minute + 10080 < e then .plain .badArgument s
  else if s.key.onAir then
    .plain .pending { s with key := s.key.waitOffAir (some (endDay.toNat, endMinute.toNat)) }
  else match s.key.maint with
    | none => .plain .notReady s
    | some m =>
      let m' := { m with endDay := endDay.toNat, endMinute := endMinute.toNat }
      .plain .ok { s with key := { s.key with maint := some m' } }

def execMaintenance (l : Link) (tag : Tag) (endDay endMinute : BitVec 16) (s : State) :
    Host.Outcome State Fault Refusal :=
  .next (s.request l ⟨tag, 0x43, octetsBE 2 endDay.toNat ++ octetsBE 2 endMinute.toNat⟩
    (actMaintenance endDay endMinute))

/-! ## The minute boundary (R127) -/

/-- Step 1: the current frame ends and enters the sent history, which keeps the newest 4 (R129). -/
def Keyer.endFrame (k : Keyer) : Keyer :=
  match k.current with
  | none => k
  | some f => { k with history := keepLast 4 (k.history ++ [f]), current := none }

/-- Step 2: resume due (R124). A boundary on the free minute count has no linear minute number (DEDUCED,
log 18). -/
def State.maintenanceDue (s : State) : State :=
  match s.key.maint with
  | none => s
  | some m =>
    let due := m.due || s.key.windowReport ||
      (s.tb.timeSet && linearMinute m.endDay m.endMinute ≤ s.tb.minute)
    { s with key := { s.key with maint := some { m with due := due } } }

/-- Step 3 with a pending mode (R118). -/
def State.boundaryPending (s : State) (m : Mode) : State :=
  let ok := s.onAirChecks m
  let s1 := { s with key := { s.key with pendingMode := none } }
  if ok then s1.changeMode m else s1.raise .resumeFailed

/-- Step 3 with a waiting off-air request (R122). -/
def State.boundaryOffAir (s : State) (r : OffReq) : State :=
  if s.key.hold || s.sched.announcing then
    { s with key := { s.key with offReq := some { r with deferred := true }, deferred := true } }
  else
    let s1 := s.changeMode .offAir
    let record := r.until_.map fun e =>
      { endDay := e.1, endMinute := e.2, resume := s.key.mode, due := false : Maint }
    { s1 with key := { s1.key.dropOffReq with maint := record } }

/-- Step 3 with a maintenance record (R125). -/
def State.boundaryResume (s : State) (m : Maint) : State :=
  if !m.due then s
  else if s.onAirChecks m.resume then
    { s with key := { s.key with maint := none } }.changeMode m.resume
  else s.raise .resumeFailed

/-- Step 3: whichever is held is acted on. -/
def State.boundaryMode (s : State) : State :=
  match s.key.pendingMode, s.key.offReq, s.key.maint with
  | some m, _, _ => s.boundaryPending m
  | none, some r, _ => s.boundaryOffAir r
  | none, none, some m => s.boundaryResume m
  | none, none, none => s

/-- The next-frame slot holds the record for the minute now starting (R102, R128). -/
def State.recordForNow (s : State) : Option FrameRecord :=
  match s.comp.next with
  | none => none
  | some r =>
    if s.tb.timeSet && r.day = s.tb.day && r.minute = minuteOfDay s.tb.sec then some r else none

/-- Step 5: in TIME_CODE the record is taken or a blank minute keyed (R106, R128). The slot is emptied
in every case (R102). -/
def State.takeFrame (s : State) : State :=
  let s1 :=
    if s.key.mode = .timeCode then
      match s.recordForNow with
      | some r =>
        let keyed := { record := r, edgeAt := s.now, edgeDay := s.tb.day, edgeSec := s.tb.sec : Keyed }
        { s with key := { s.key with current := some keyed }, comp := s.comp.taken r }
      | none => (s.raise .blankMinute).count .blankMinutes 1
    else s
  { s1 with comp := { s1.comp with next := none } }

/-- The steps of R127 in order. -/
def State.keyerBoundary (s : State) : State :=
  let s1 := { s with key := s.key.endFrame }
  let s2 := s1.maintenanceDue.boundaryMode.takeFrame
  { s2 with key := { s2.key with windowReport := false } }

/-! ## What the keyer does at every second edge (R3, R14, R18) -/

/-- The level pair is loaded from FULL_LEVEL and DEPTH (R3). -/
def State.loadLevels (s : State) : State :=
  { s with key := { s.key with
      full := s.params.fullLevel
      reduced := reducedLevel s.params.fullLevel s.params.depth } }

/-- The symbol of the second begun by this edge; absent in an unmarked second (R6, R14, R18). -/
def Keyer.symbol (k : Keyer) : Option Symbol :=
  match k.mode with
  | .timeCode => k.current.bind fun f => f.record.syms[k.secIdx]?
  | .testPattern => some (genSymbol k.gen)
  | .offAir => none
  | .carrierOnly => none

/-- The second begun by this edge takes its shape, and in TEST_PATTERN the generator steps. `boundary`
says that the edge is a minute boundary. -/
def State.beginSignal (s : State) (boundary : Bool) : State :=
  let k := { s.key with secIdx := if boundary then 0 else s.key.secIdx + 1 }
  { s with key := { k with
      mark := (k.symbol.map (markOf s.now)).getD []
      gen := if k.mode = .testPattern then genStep k.gen else k.gen } }

/-! ## Transmitter readiness (R114) -/

/-- TX_READY_CHANGE: TX_READY goes to `level`. -/
def execTxReadyChange (level : Bool) (dt : Nat) (s : State) : Host.Outcome State Fault Refusal :=
  let s1 := { s.wait dt with txReady := level }
  .next (if s1.por then s1 else s1.settle)

/-! ## Reading (R132) -/

def OffReq.encode (r : OffReq) : List Octet :=
  encFlag r.until_.isSome ++ encOption encDayMinute r.until_ ++ encFlag r.deferred

def Maint.encode (m : Maint) : List Octet :=
  encDayMinute (m.endDay, m.endMinute) ++ encMode m.resume ++ encFlag m.due

/-- The keyer's summary (R132, part 0). -/
def State.keyerSummary (s : State) : List Octet :=
  let k := s.key
  encMode k.mode ++ encOption encMode k.pendingMode ++ encOption OffReq.encode k.offReq ++
    encOption Maint.encode k.maint ++ encFlag k.windowReport ++ encFlag k.hold ++
    octetsBE 2 k.full ++ octetsBE 2 k.reduced ++ encFlag s.txReady ++
    octetsBE 1 s.bus.contributing ++ encParam s.params.minModules ++ encFlag s.transmitterReady ++
    octetsBE 2 k.gen.toNat ++ octetsBE 1 k.history.length ++
    encOption (fun f : Keyed => encDayMinute (f.record.day, f.record.minute)) k.current

/-- A sent history record: the fields of R100 but the symbols, the symbol list, the second-0 edge
(log 7). -/
def Keyed.encode (f : Keyed) : List Octet :=
  let r := f.record
  encDayMinute (r.day, r.minute) ++ encDayMinute (r.civDay, r.civMinute) ++ octetsBE 1 r.length ++
    signedBE 1 r.octIdx ++ encFlag r.low ++ encLeap r.leap ++ encFlag r.zoneAnn ++
    octetsBE 1 r.zone ++ octetsBE 1 r.nextZone ++ octetsBE 1 r.quality ++ octetsBE 1 r.crc.toNat ++
    encList (octetsBE 1) r.announcing ++ encSymbols 2 r.syms ++ encDaySecond (f.edgeDay, f.edgeSec)

/-- READ_KEYER (R132). -/
def actReadKeyer (part : Octet) (s : State) : Acted :=
  if part = 0 then .answered .ok s.keyerSummary s
  else if 4 < part.toNat then .plain .badArgument s
  else match s.key.history[part.toNat - 1]? with
    | none => .plain .notFound s
    | some f => .answered .ok f.encode s

def execReadKeyer (l : Link) (tag : Tag) (part : Octet) (s : State) :
    Host.Outcome State Fault Refusal :=
  .next (s.request l ⟨tag, 0x44, [part]⟩ (actReadKeyer part))

end Sys2Proof.Machine
end

