-- ==== Sys2Proof/Machine/References.lean ====
section
/-! DEFINITION. The reference ports and the selector (Chapter 3). What a pulse does to the timebase
stands in Machine/Edge.lean. -/

namespace Sys2Proof.Machine

/-! ## The time message (R44, R45) -/

/-- 2 ms, the gap that discards a message, in cycles (DEDUCED, log 15). -/
def msgGap : Nat := 20000

/-- The leap warning code, bits 2..1 of the status octet; code 3 is none of them. -/
def leapWarningOf (status : Octet) : Option LeapCode :=
  match status.toNat / 2 % 4 with
  | 0 => some .none
  | 1 => some .insert
  | 2 => some .delete
  | _ => none

/-- What a complete message says: whether it is valid, and its label. `none` for a discarded one. -/
def messageOf : List Octet → Option (Bool × Label)
  | [_, st, d1, d0, s2, s1, s0, ck] =>
    let day := (d1 ++ d0).toNat
    let sec := (s2 ++ s1 ++ s0).toNat
    if st + d1 + d0 + s2 + s1 + s0 + ck ≠ 0 then none
    else match leapWarningOf st with
      | none => none
      | some w =>
        if 36524 < day || 86400 < sec then none
        else some (st.getLsbD 0, { day := day, sec := sec, leap := w })
  | _ => none

/-- A complete message acts on the waiting label, unless a pulse came during it (R45). -/
def RefPort.messageDone (r : RefPort) (msg : List Octet) : RefPort :=
  if r.rxLate then r
  else match messageOf msg with
    | none => r
    | some (valid, label) => { r with waiting := if valid then some label else none }

/-- One octet on REFn_MSG. -/
def RefPort.octet (r : RefPort) (now : Nat) (o : Octet) : RefPort :=
  if r.st = .disabled then r
  else if r.rx = [] then
    if o = 0x5A then { r with rx := [o], rxLate := false, rxGapAt := now + msgGap } else r
  else if r.rx.length < 7 then { r with rx := r.rx ++ [o], rxGapAt := now + msgGap }
  else { r.messageDone (r.rx ++ [o]) with rx := [], rxLate := false }

/-- The message in progress is discarded. -/
def RefPort.dropMessage (r : RefPort) : RefPort := { r with rx := [], rxLate := false }

/-- REF_MESSAGE (R44, R45): the octets are received now (DESIGN CHOICE, log 26). -/
def execRefMessage (p : Port) (octets : List Octet) (dt : Nat) (s : State) :
    Host.Outcome State Fault Refusal :=
  let s1 := s.wait dt
  .next (if s1.por then s1
    else s1.setPort p (octets.foldl (fun r o => r.octet s1.now o) (s1.port p)))

/-- REF_MSG_GAP_EXPIRY (R44). With no message in progress there is none. -/
def execRefMsgGapExpiry (p : Port) (s : State) : Host.Outcome State Fault Refusal :=
  .next (if s.por || (s.port p).rx = [] then s
    else (s.waitUntil (s.port p).rxGapAt).setPort p (s.port p).dropMessage)

/-- REF_MSG_FRAMING_ERROR (R44). -/
def execRefMsgFramingError (p : Port) (dt : Nat) (s : State) : Host.Outcome State Fault Refusal :=
  let s1 := s.wait dt
  .next (if s1.por then s1 else s1.setPort p (s1.port p).dropMessage)

/-! ## Qualification (R47, R48, R49) -/

/-- The port is put into `st` with its good, irregular and unlabelled runs at 0. -/
def RefPort.moveTo (r : RefPort) (st : PortState) : RefPort :=
  { r with st := st, goodRun := 0, irregRun := 0, unlabRun := 0 }

/-- The time part of an evaluation: a labelled pulse while time is SET, whose label differs from the
second begun by its edge (R47). -/
def State.mismatch (s : State) (label : Option Label) : Bool :=
  s.tb.timeSet && match label with
    | some x => x.day ≠ s.tb.day || x.sec ≠ s.tb.sec
    | none => false

/-- A completed evaluation acts on the port's runs (R48, R49). -/
def RefPort.judge (r : RefPort) (q : Params) (u : OpenPulse) (mismatch : Bool) : RefPort :=
  match r.st with
  | .candidate =>
    if u.interval = .regular && u.label.isSome && !mismatch then
      if q.qualCount ≤ r.goodRun + 1 then r.moveTo .qualified
      else { r with goodRun := r.goodRun + 1 }
    else { r with goodRun := 0 }
  | .qualified =>
    let irreg := match u.interval with
      | .irregular => r.irregRun + 1
      | .regular => 0
      | .none => r.irregRun
    let unlab := if u.label.isSome then 0 else r.unlabRun + 1
    if mismatch || (u.interval = .irregular && q.disqCount ≤ irreg) || 3 ≤ unlab then
      r.moveTo .candidate
    else { r with irregRun := irreg, unlabRun := unlab }
  | .disabled => r
  | .absent => r

/-! ## Exits from QUALIFIED (R50) -/

/-- The counter of a port's exits from QUALIFIED. -/
def refDisqualify : Port → Counter
  | .p1 => .ref1Disqualify
  | .p2 => .ref2Disqualify

/-- The port left QUALIFIED between `s0` and `s`. -/
def State.leftQualified (s0 s : State) (p : Port) : Bool := s0.qualified p && !s.qualified p

/-- The port takes the value `r`, and an exit from QUALIFIED is counted (R50). -/
def State.movePort (s : State) (p : Port) (r : RefPort) : State :=
  let s1 := s.setPort p r
  if s.leftQualified s1 p then s1.count (refDisqualify p) 1 else s1

/-! ## The completion of an evaluation (R47) -/

/-- The evaluation of a pulse completes with its offset (R47); a mismatch in QUALIFIED raises
TIME_MISMATCH (R49). Of several pulses of the port that are paired with one edge each acts on the port,
and the offset of the last is kept for the judgement of agreement (DESIGN CHOICE, log 27). -/
def State.completePulse (s : State) (p : Port) (u : OpenPulse) (offset : Int) : State :=
  let bad := s.mismatch u.label
  let r := { s.port p with lastOffset := offset, edgeOffset := some offset }
  (s.movePort p (r.judge s.params u bad)).raiseIf (s.qualified p && bad) .timeMismatch

/-! ## The selector (R53, R54, R58) -/

/-- The port became QUALIFIED between `s0` and `s`. -/
def State.becameQualified (s0 s : State) (p : Port) : Bool := !s0.qualified p && s.qualified p

/-- REF_DISAGREE clears when a port has left QUALIFIED since `s0`, and with it the latest difference
(R58; DEDUCED, log 11). -/
def State.clearDisagree (s0 s : State) : State :=
  if (s0.leftQualified s .p1 || s0.leftQualified s .p2) && s.sel.disagree then
    { s with sel := { s.sel with disagree := false, diff := none } }
  else s

/-- The selection after port states have moved since `s0` (R54, R55). -/
def State.autoSelection (s0 s : State) : Option Port :=
  match s.sel.mode, s.sel.selection with
  | .manual, x => x
  | .auto, some p =>
    if s0.leftQualified s p then (if s.qualified p.other then some p.other else none) else some p
  | .auto, none =>
    if s0.becameQualified s .p1 then some .p1
    else if s0.becameQualified s .p2 then some .p2
    else none

/-- The selection becomes `x`: REF_SWITCH is raised if it changes, and the timebase follows (R53). -/
def State.select (s : State) (x : Option Port) : State :=
  let s1 := { s with sel := { s.sel with selection := x } }
  (s1.raiseIf (s.sel.selection ≠ x) .refSwitch).follow s.sel.selection

/-- What the selector and the timebase make, once in an event, of port states that have moved since `s0`
(R50, R54). -/
def State.portsMoved (s0 s : State) : State :=
  let s1 := s0.clearDisagree s
  s1.select (s0.autoSelection s1)

/-- Both ports' offsets to the latest edge are known and both are QUALIFIED: the difference is judged
(R58). A further pulse paired with that edge has its port's new offset judged again (DESIGN CHOICE,
log 27). -/
def State.judgeAgreement (s : State) : State :=
  match s.ref1.edgeOffset, s.ref2.edgeOffset with
  | some o1, some o2 =>
    if s.qualified .p1 && s.qualified .p2 then
      let d := (o1 - o2).natAbs
      { s with sel := { s.sel with diff := some d, disagree := s.params.refAgree < d } }
    else s
  | _, _ => s

/-- PULSE_WATCH_EXPIRY (R46) on a port whose watch runs. -/
def RefPort.watchOut (r : RefPort) (now : Nat) : RefPort :=
  let r1 := { r with missed := r.missed + 1, waiting := none }
  if r1.missed = 1 then { r1 with watch := some (now + 10000000) }
  else { r1.moveTo .absent with missed := 2, watch := none, lastPulse := none }

def execPulseWatchExpiry (p : Port) (s : State) : Host.Outcome State Fault Refusal :=
  .next (match (s.port p).watch with
    | none => s
    | some t =>
      if s.por then s
      else
        let s1 := s.waitUntil t
        (s1.portsMoved (s1.movePort p ((s1.port p).watchOut s1.now))).settle)

/-! ## Requests (R51, R56, R57, R60) -/

/-- The port is turned off (R51). -/
def RefPort.turnOff (r : RefPort) : RefPort :=
  { r.moveTo .disabled with
    enable := false, watch := none, openPulses := [], edgeOffset := none, missed := 0,
    lastPulse := none, waiting := none, last := none, leapDis := false, rx := [], rxLate := false }

/-- The port is turned on (R51). -/
def RefPort.turnOn (r : RefPort) : RefPort := { r with enable := true, st := .absent }

/-- SET_REF_ENABLE (R51). -/
def actSetRefEnable (port setting : Octet) (s : State) : Acted :=
  match portOf port, settingOf setting with
  | some p, some true =>
    if (s.port p).enable then .plain .ok s else .plain .ok (s.setPort p (s.port p).turnOn)
  | some p, some false =>
    if s.sel.selection = some p then .plain .inUse s
    else if (s.port p).enable then .plain .ok (s.portsMoved (s.movePort p (s.port p).turnOff))
    else .plain .ok s
  | _, _ => .plain .badArgument s

def execSetRefEnable (l : Link) (tag : Tag) (port setting : Octet) (s : State) :
    Host.Outcome State Fault Refusal :=
  .next (s.request l ⟨tag, 0x21, [port, setting]⟩ (actSetRefEnable port setting))

/-- SELECT_REFERENCE (R56). -/
def actSelectReference (choice : Octet) (s : State) : Acted :=
  match refChoiceOf choice with
  | none => .plain .badArgument s
  | some x =>
    if (x.map fun p => !s.qualified p).getD false then .plain .notReady s
    else .plain .ok ({ s with sel := { s.sel with manual := x } }.select x)

def execSelectReference (l : Link) (tag : Tag) (choice : Octet) (s : State) :
    Host.Outcome State Fault Refusal :=
  .next (s.request l ⟨tag, 0x20, [choice]⟩ (actSelectReference choice))

/-- The selection that a move to AUTO makes (R57). -/
def State.selectionForAuto (s : State) : Option Port :=
  match s.steering with
  | some p => some p
  | none => if s.qualified .p1 then some .p1 else if s.qualified .p2 then some .p2 else none

/-- The selection that a move to MANUAL makes (R57). -/
def State.selectionForManual (s : State) : Option Port :=
  match s.sel.manual with
  | some p => if s.qualified p then some p else s.sel.selection
  | none => s.sel.selection

/-- SET_SELECT_MODE (R57). -/
def actSetSelectMode (mode : Octet) (s : State) : Acted :=
  match selectModeOf mode with
  | none => .plain .badArgument s
  | some m =>
    if m = s.sel.mode then .plain .ok s
    else match m with
      | .auto => .plain .ok ({ s with sel := { s.sel with mode := .auto } }.select s.selectionForAuto)
      | .manual =>
        let x := s.selectionForManual
        .plain .ok ({ s with sel := { s.sel with mode := .manual, manual := x } }.select x)

def execSetSelectMode (l : Link) (tag : Tag) (mode : Octet) (s : State) :
    Host.Outcome State Fault Refusal :=
  .next (s.request l ⟨tag, 0x22, [mode]⟩ (actSetSelectMode mode))

def encLabel (x : Label) : List Octet := encDaySecond (x.day, x.sec) ++ encLeap x.leap

/-- The values of READ_REFERENCES (R60), row by row, port 1 before port 2 in each (log 7). -/
def State.referencesReport (s : State) : List Octet :=
  let both := fun enc : RefPort → List Octet => enc s.ref1 ++ enc s.ref2
  encSelectMode s.sel.mode ++ encRefChoice s.sel.selection ++ encRefChoice s.sel.manual ++
    both (fun r => encFlag r.enable ++ encPortState r.st) ++
    both (fun r => octetsBE 1 r.goodRun ++ octetsBE 1 r.irregRun ++ octetsBE 1 r.unlabRun ++
      octetsBE 1 r.missed) ++
    both (fun r => encOption encLabel r.last) ++
    both (fun r => encFlag r.waiting.isSome) ++
    both (fun r => signedBE 4 r.lastOffset) ++
    both (fun r => encFlag r.leapDis) ++
    encOption (octetsBE 3) s.sel.diff ++ encFlag s.sel.disagree

/-- READ_REFERENCES (R60). -/
def actReadReferences (s : State) : Acted := .answered .ok s.referencesReport s

def execReadReferences (l : Link) (tag : Tag) (s : State) : Host.Outcome State Fault Refusal :=
  .next (s.request l ⟨tag, 0x23, []⟩ actReadReferences)

/-! ## The leap warning check (R59) -/

/-- The schedule's leap for the month of the current base day: that of an entry in any state whose leap
day, the day before its E, is the last day of the month. -/
def State.scheduledLeap (s : State) : LeapCode :=
  match s.sched.entries.find? (fun x => x.isLeap && x.eDay = lastOfMonth s.tb.day + 1) with
  | some x => if x.kind = .leapInsert then .insert else .delete
  | none => .none

/-- The port disagrees with the schedule at this instant. -/
def State.leapDisagrees (s : State) (p : Port) : Bool :=
  s.qualified p && match (s.port p).last with
    | some x => x.leap ≠ s.scheduledLeap
    | none => s.scheduledLeap ≠ .none

/-- The check of one composition instant. -/
def State.leapCheck (s : State) : State :=
  let d1 := s.leapDisagrees .p1
  let d2 := s.leapDisagrees .p2
  let s1 := s.raiseIf ((d1 && !s.ref1.leapDis) || (d2 && !s.ref2.leapDis)) .leapDisagree
  { s1 with ref1 := { s1.ref1 with leapDis := d1 }, ref2 := { s1.ref2 with leapDis := d2 } }

end Sys2Proof.Machine
end

