-- ==== Sys2Proof/Machine/Edge.lean ====
section
/-! DEFINITION. Second edges: what each does to the timebase and, in one event, to every block that
acts on an edge (Chapters 2, 3, 5, 6); and the pulses that are paired with them. -/

namespace Sys2Proof.Machine

/-! ## How an edge comes to be made (R26, R34, R36) -/

/-- What makes an edge. -/
inductive EdgeKind where
  /-- The count of the second, or the end of a hold for a phase step. -/
  | counted
  /-- A pulse that carries out a phase step. -/
  | phaseStep
  /-- A pulse, with its label, that carries out time acquisition. -/
  | acquisition (label : Label)
  deriving DecidableEq, Repr

/-! ## The learning window (R32, R34) -/

/-- The bound of the trim, in cycles per 100 seconds. -/
def trimBound : Nat := 5000

/-- The second in progress ends and, if it was begun and ended in LOCKED, enters the window (DEDUCED,
log 9). -/
def Timebase.learn (t : Timebase) : Timebase :=
  if t.begunLocked && t.disc = .locked then
    if t.slewing then t.emptyWindow
    else if 100 ≤ t.winCount + 1 then
      { t.emptyWindow with trim := limit trimBound (t.trim + (t.winSum + t.corr)), trimValid := true }
    else { t with winCount := t.winCount + 1, winSum := t.winSum + t.corr }
  else t

/-- What the edge does to the window: a phase step empties it (R34). -/
def Timebase.windowAtEdge (t : Timebase) : EdgeKind → Timebase
  | .counted => t.learn
  | .phaseStep => { t.emptyWindow with stepWaiting := false }
  | .acquisition _ => t.learn

/-- The holdover age goes up by one in HOLDOVER and stops at 65535 (R31). -/
def Timebase.age (t : Timebase) : Timebase :=
  if t.disc = .holdover then { t with holdAge := min 65535 (t.holdAge + 1) } else t

/-! ## Broadcast time (R23, R24, R25, R36, R39) -/

/-- The day and second that begin the next minute. -/
def Timebase.nextMinuteStart (t : Timebase) : Nat × Nat :=
  if minuteOfDay t.sec = 1439 then (if t.day = 36524 then 0 else t.day + 1, 0)
  else (t.day, 60 * (minuteOfDay t.sec + 1))

/-- The length of the minute with linear minute number `minute` (R24). -/
def Timebase.lengthFor (t : Timebase) (minute : Nat) : Nat :=
  match t.handed with
  | some h => if h.minute = minute then h.length else 60
  | none => 60

/-- The next second of broadcast time. -/
def Timebase.advance (t : Timebase) : Timebase :=
  if t.minLen ≤ secondOfMinute t.sec + 1 then
    let next := t.nextMinuteStart
    { t with
      day := next.1
      sec := next.2
      minLen := t.lengthFor (linearMinute next.1 (minuteOfDay next.2))
      handed := none }
  else { t with sec := t.sec + 1 }

/-- The next second of the free counts. -/
def Timebase.advanceFree (t : Timebase) : Timebase :=
  if t.freeSec = 59 then { t with freeSec := 0, freeMin := (t.freeMin + 1) % 1440 }
  else { t with freeSec := t.freeSec + 1 }

/-- Broadcast time is set to a day and second. -/
def Timebase.setTime (t : Timebase) (day sec : Nat) : Timebase :=
  { t with timeSet := true, day := day, sec := sec, minLen := 60, handed := none, acq := none }

/-- The effects of an acquisition edge beside the time it sets (R36). -/
def Timebase.acquire (t : Timebase) : Timebase :=
  { t.emptyWindow with disc := .locked, stepWaiting := false }

/-- Broadcast time at the edge: a pending step before the label of an acquisition before the count. -/
def Timebase.timeAtEdge (t : Timebase) (kind : EdgeKind) : Timebase :=
  match kind, t.pendingStep with
  | .acquisition _, some x => { t.setTime x.1 x.2 with pendingStep := none }.acquire
  | .acquisition label, none => (t.setTime label.day label.sec).acquire
  | .counted, some x => { t.setTime x.1 x.2 with pendingStep := none }
  | .phaseStep, some x => { t.setTime x.1 x.2 with pendingStep := none }
  | .counted, none => if t.timeSet then t.advance else t.advanceFree
  | .phaseStep, none => if t.timeSet then t.advance else t.advanceFree

/-! ## The second begun (R26) -/

/-- The second begun at `now` takes its length from the trim share, without a correction yet, and the
trim position advances. -/
def Timebase.beginSecond (t : Timebase) (now : Nat) : Timebase :=
  { t with
    length := 10000000 + trimShare t.trim t.k
    k := (t.k + 1) % 100
    edgeAt := now
    edgeMade := true
    corr := 0
    slewing := false }

/-- The whole of what an edge does to the timebase itself. -/
def Timebase.edge (t : Timebase) (kind : EdgeKind) (now : Nat) : Timebase :=
  ((((t.windowAtEdge kind).age).timeAtEdge kind).beginSecond now)

/-! ## The pulses paired with the edge (R28, R29, R47, R58) -/

/-- No pulse is paired with the new edge yet. -/
def RefPort.freshEdge (r : RefPort) : RefPort := { r with edgeOffset := none }

/-- The offset, to the latest edge, of a pulse at an instant (R28). -/
def State.offsetOf (s : State) (at_ : Nat) : Int := (s.tb.edgeAt : Int) - (at_ : Int)

/-- The offsets of a port's open pulses give their corrections to the second begun (R29). -/
def State.correctOpen (s : State) (p : Port) : State :=
  (s.port p).openPulses.foldl (fun s u => s.correct p (s.offsetOf u.at_)) s

/-- The evaluations of a port's open pulses complete. -/
def State.completeOpen (s : State) (p : Port) : State :=
  let open_ := (s.port p).openPulses
  let s1 := s.setPort p { s.port p with openPulses := [] }
  open_.foldl (fun s u => s.completePulse p u (s.offsetOf u.at_)) s1

/-- LOCKED has been entered, or entered again, since `s0` on a port whose offset became known meanwhile
(`known`): if that offset exceeds SLEW and no phase step waits, the timebase slews from that offset on
(R33, 2.5). An entry with no offset in its event corrects nothing (DEDUCED, log 29). -/
def State.slewOnEntry (s0 s : State) (known : Port → Bool) : State :=
  match s.sel.selection with
  | none => s
  | some p =>
    let o := (s.port p).lastOffset
    let entered := s0.tb.disc ≠ .locked || s0.sel.selection ≠ some p
    if known p && entered && s.params.slew < o.natAbs then s.correct p o else s

/-- The port has a pulse whose offset the next edge makes known. -/
def State.hasOpen (s : State) (p : Port) : Bool := !(s.port p).openPulses.isEmpty

/-- The corrections, which only a counted edge takes, then the evaluations, then what follows from
them: the selection, the discipline, the slewing of an entry to LOCKED, the judgement of agreement
(DESIGN CHOICE, log 8). -/
def State.pulsesAtEdge (s : State) (kind : EdgeKind) : State :=
  let s1 := if kind = .counted then (s.correctOpen .p1).correctOpen .p2 else s
  let s2 := s1.portsMoved ((s1.completeOpen .p1).completeOpen .p2)
  let s3 := if kind = .counted then s1.slewOnEntry s2 s.hasOpen else s2
  if s.hasOpen .p1 || s.hasOpen .p2 then s3.judgeAgreement else s3

/-- The second begun counts as begun in LOCKED if the edge leaves the discipline LOCKED (R32). -/
def State.markBegun (s : State) : State :=
  { s with tb := { s.tb with begunLocked := s.tb.disc = .locked } }

/-! ## Minute boundaries and composition instants (R23, R25, R90) -/

/-- The edge just made is a minute boundary. -/
def Timebase.atBoundary (t : Timebase) : Bool :=
  if t.timeSet then secondOfMinute t.sec = 0 else t.freeSec = 0

/-- The edge just made is a composition instant. -/
def Timebase.atComposition (t : Timebase) : Bool := t.timeSet && secondOfMinute t.sec = 50

/-- What a minute boundary does: the keyer's steps (R127), then the performance tick (R198). -/
def State.minuteBoundary (s : State) : State := s.keyerBoundary.minuteTick

/-- What a composition instant does (R90): the leap warning check, the schedule processing, the
building of the frame. -/
def State.composition (s : State) : State :=
  let f := nextMinute s.tb.minute
  (s.leapCheck.processSchedule f).handOver f

/-! ## The edge (DEDUCED, log 6) -/

/-- The parts of an edge that come after the timebase's own. -/
def State.edgeEffects (s : State) (kind : EdgeKind) : State :=
  let s1 := (s.pulsesAtEdge kind).markBegun.loadLevels
  let boundary := s1.tb.atBoundary
  let s2 := (if boundary then s1.minuteBoundary else s1).beginSignal boundary
  if s2.tb.atComposition then s2.composition else s2

/-- What an edge made now does to the timebase itself, to the pulses still to be paired, and to the delay of
a mark that opened at this instant (R171). -/
def State.beginEdge (s : State) (kind : EdgeKind) : State :=
  let t := s.tb.edge kind s.now
  { s with
    tb := t
    ref1 := s.ref1.freshEdge
    ref2 := s.ref2.freshEdge
    mon := s.mon.atEdge ⟨s.now, t.day, t.sec⟩ }

/-- A second edge is made now. -/
def State.makeEdge (s : State) (kind : EdgeKind) : State := (s.beginEdge kind).edgeEffects kind

/-! ## Counted edges (R26, R34) -/

/-- SECOND_EDGE: the count of the second reaches its length. While a phase step waits the edge is held
back for the pulse. -/
def execSecondEdge (s : State) : Host.Outcome State Fault Refusal :=
  .next (if s.por then s
    else
      let s1 := s.waitUntil s.tb.due
      if s1.tb.stepWaiting then s1 else (s1.makeEdge .counted).settle)

/-- How long an edge is held back for a phase step, in cycles; also the half second of R28. -/
def halfSecond : Nat := 5000000

/-- PHASE_STEP_HOLD_EXPIRY (R34): the edge is made, and the step is abandoned. Without a waiting step
there is no hold. -/
def execPhaseStepHoldExpiry (s : State) : Host.Outcome State Fault Refusal :=
  .next (if s.por || !s.tb.stepWaiting then s
    else ((s.waitUntil (s.tb.due + halfSecond)).abandonStep.makeEdge .counted).settle)

/-! ## Reference pulses (R45, R46, R47) -/

/-- The interval part of a pulse at `now` (R47). -/
def RefPort.intervalAt (r : RefPort) (window now : Nat) : Interval :=
  match r.lastPulse with
  | none => .none
  | some t =>
    if 10000000 - window ≤ now - t && now - t ≤ 10000000 + window then .regular else .irregular

/-- A pulse moves a port in ABSENT to CANDIDATE (R46). -/
def RefPort.present (r : RefPort) : RefPort := if r.st = .absent then r.moveTo .candidate else r

/-- What a pulse at `now` does to its port at once: the label is taken, the interval judged, the watch
started. -/
def RefPort.pulse (r : RefPort) (window now : Nat) : RefPort :=
  { r.present with
    rxLate := !r.rx.isEmpty
    waiting := none
    last := r.waiting.orElse fun _ => r.last
    lastPulse := some now
    missed := 0
    watch := some (now + (10000000 + window)) }

/-- The pulse as it waits for its offset. -/
def RefPort.openPulse (r : RefPort) (window now : Nat) : OpenPulse where
  at_ := now
  interval := r.intervalAt window now
  label := r.waiting

/-- The pulse `u` joins the port's open pulses. -/
def State.pushOpen (s : State) (p : Port) (u : OpenPulse) : State :=
  s.setPort p { s.port p with openPulses := (s.port p).openPulses ++ [u] }

/-- The label with which a pulse of port `p` carries out time acquisition (R36). -/
def State.acquisitionLabel (s : State) (p : Port) (u : OpenPulse) : Option Label :=
  if !s.tb.timeSet && s.tb.acq = some p then
    match u.label with
    | some x => if x.sec ≤ 86399 then some x else none
    | none => none
  else none

/-- A pulse of port `p` carries out the waiting phase step (R34). -/
def State.stepsAt (s : State) (p : Port) : Bool :=
  s.tb.stepWaiting && s.sel.selection = some p && s.tb.edgeAt + halfSecond < s.now

/-- A pulse is paired with the latest edge (R28). The start of counting is no edge, so a pulse before
the first edge is paired with that edge (DEDUCED, log 10). -/
def State.pairsWithLatest (s : State) : Bool :=
  s.tb.edgeMade && s.now ≤ s.tb.edgeAt + halfSecond

/-- A pulse paired with the latest edge: its correction, its evaluation, and what follows (log 8). -/
def State.pulseNow (s : State) (p : Port) (u : OpenPulse) : State :=
  let o := s.offsetOf u.at_
  let s1 := s.correct p o
  let s2 := s1.portsMoved (s1.completePulse p u o)
  (s1.slewOnEntry s2 (· = p)).judgeAgreement

/-- What the pulse `u` does after its port has taken it. -/
def State.pulseEffects (s : State) (p : Port) (u : OpenPulse) : State :=
  match s.acquisitionLabel p u with
  | some label => (s.pushOpen p u).makeEdge (.acquisition label)
  | none =>
    if s.stepsAt p then (s.pushOpen p u).makeEdge .phaseStep
    else if s.pairsWithLatest then s.pulseNow p u
    else s.pushOpen p u

/-- REF_PULSE. A DISABLED port takes no pulse (R51). -/
def execRefPulse (p : Port) (dt : Nat) (s : State) : Host.Outcome State Fault Refusal :=
  let s1 := s.wait dt
  let r := s1.port p
  .next (if s1.por || r.st = .disabled then s1
    else
      let w := s1.params.qualWindow
      ((s1.setPort p (r.pulse w s1.now)).pulseEffects p (r.openPulse w s1.now)).settle)

end Sys2Proof.Machine
end

