-- ==== Sys2Proof/Machine/Bus.lean ====
section
/-! DEFINITION. The amplifier bus (Chapter 8): transactions and retries, the scan and its table, the
relay queue, and the commands that concern it. -/

namespace Sys2Proof.Machine

/-! ## Beginning a transaction (R151, R152, R153) -/

/-- 2 ms, the answer window, in cycles (DEDUCED, log 15). -/
def answerTime : Nat := 20000

/-- A transaction begins, with its first attempt; it takes the value of AMP_RETRIES (R152). -/
def State.beginTxn (s : State) (scan : Bool) (address register : Nat) (value : Option (BitVec 16)) :
    State :=
  { s with bus := { s.bus with
      txn := some {
        scan := scan, address := address, register := register, value := value,
        retries := s.params.ampRetries, attempts := 1, phase := .sending, rangeChanged := false } } }

/-- An entry's transaction is under way. -/
def RelayEntry.begun (x : RelayEntry) : RelayEntry := { x with underWay := true }

/-- What the bus carries next: the oldest relay entry not yet under way, else a scan read of the scan
position, else nothing (R153). -/
def State.chooseNext (s : State) : State :=
  match s.bus.queue.find? (fun x => !x.underWay) with
  | some x =>
    let queue := updateFirst (fun y : RelayEntry => !y.underWay) RelayEntry.begun s.bus.queue
    { s with bus := { s.bus with queue := queue } }.beginTxn false x.address x.register x.value
  | none => if s.params.scanEnable then s.beginTxn true s.bus.pos 0 none else s

/-- An idle bus chooses; a busy one goes on. -/
def State.kickBus (s : State) : State := if s.bus.txn.isNone then s.chooseNext else s

/-! ## The scan table (R154, R155, R157, R158) -/

/-- The record of an address becomes `r`. -/
def Bus.setRecord (b : Bus) (address : Nat) (r : ScanRec) : Bus :=
  { b with table := b.table.setIfInBounds (address - 1) r }

/-- The record of an address becomes `r`, and MODULE_CHANGE is raised if its state changes. -/
def State.updateRecord (s : State) (address : Nat) (r : ScanRec) : State :=
  { s with bus := s.bus.setRecord address r }.raiseIf ((s.bus.record address).st ≠ r.st) .moduleChange

/-- The record that an answered read of register 0 gives. -/
def ScanRec.answered (w : BitVec 16) : ScanRec where
  st := moduleStateOf w
  status := some w
  passes := 0

/-- The record after a scan read that ended NO_ANSWER. -/
def ScanRec.unanswered (r : ScanRec) : ScanRec :=
  { r with st := .silent, passes := min 255 (r.passes + 1) }

/-- The outcome of a read of register 0 of an address acts on its record, if the address lies in the range
at the end of the read. For a scan read whose address has left the range and come back meanwhile this is
a choice (DESIGN CHOICE, log 28). -/
def State.recordOutcome (s : State) (address : Nat) (answer : Option (BitVec 16)) : State :=
  if s.bus.inRange address then
    s.updateRecord address (match answer with
      | some w => ScanRec.answered w
      | none => (s.bus.record address).unanswered)
  else s

/-- The address after `address` in the scan. -/
def Bus.after (b : Bus) (address : Nat) : Nat := if b.last ≤ address then b.first else address + 1

/-! ## The end of a transaction (R152, R155, R161) -/

/-- The scan read `t` ends. After a range change the next scan read is of first (R159; DEDUCED, log 16). -/
def State.scanEnds (s : State) (t : Txn) (answer : Option (BitVec 16)) : State :=
  let s1 := s.recordOutcome t.address answer
  if t.rangeChanged then s1
  else { s1 with bus := { s1.bus with pos := s1.bus.after s1.bus.pos } }

/-- The request CODE of a relay entry. -/
def RelayEntry.code (x : RelayEntry) : Octet := if x.value.isSome then 0x81 else 0x80

/-- The response to a relay entry is given, if it is still wanted (R161). -/
def State.relayResponse (s : State) (x : RelayEntry) (attempts : Nat) (answer : Option (BitVec 16)) :
    State :=
  if x.wanted then
    match answer with
    | some w =>
      s.respond x.link .inRelay x.tag x.code .ok
        (octetsBE 2 (x.value.getD w).toNat ++ octetsBE 1 attempts)
    | none => s.respond x.link .inRelay x.tag x.code .noAnswer (octetsBE 1 attempts)
  else s

/-- The relay transaction `t` ends: its entry leaves the queue and is answered, and an answered read of
register 0 acts on the scan table (R161). -/
def State.relayEnds (s : State) (t : Txn) (answer : Option (BitVec 16)) : State :=
  let entry := s.bus.queue.find? (·.underWay)
  let s1 := { s with bus := { s.bus with queue := s.bus.queue.filter (fun x => !x.underWay) } }
  let s2 := match entry with
    | some x => s1.relayResponse x t.attempts answer
    | none => s1
  if t.value.isNone && t.register = 0 && answer.isSome then s2.recordOutcome t.address answer else s2

/-- The transaction `t` ends with the module's answer, or with none, and the bus chooses again. -/
def State.txnEnds (s : State) (t : Txn) (answer : Option (BitVec 16)) : State :=
  let s1 := { s with bus := { s.bus with txn := none } }
  (if t.scan then s1.scanEnds t answer else s1.relayEnds t answer).chooseNext

/-! ## Line events of the bus (R151, R152) -/

/-- ATTEMPT_SENT: the sending ends and the answer window opens. -/
def execAttemptSent (dt : Nat) (s : State) : Host.Outcome State Fault Refusal :=
  let s1 := s.wait dt
  .next (match s1.bus.txn with
    | some t =>
      if s1.por || t.phase ≠ .sending then s1
      else
        let t1 := { t with phase := .window (s1.now + answerTime) }
        { s1 with bus := { s1.bus with txn := some t1 } }
    | none => s1)

/-- The attempt can still be answered at `now`: its answer window is open (R151). At the end itself the
command that comes first decides (DEDUCED, log 15). -/
def AttemptPhase.openAt (now : Nat) : AttemptPhase → Bool
  | .sending => false
  | .window endsAt => now ≤ endsAt

/-- MODULE_ANSWER: a valid answer (DESIGN CHOICE, log 24) ends the transaction ANSWERED. Outside an
answer window, and after its end, there is none (DESIGN CHOICE, log 2). -/
def execModuleAnswer (value : BitVec 16) (dt : Nat) (s : State) : Host.Outcome State Fault Refusal :=
  let s1 := s.wait dt
  .next (match s1.bus.txn with
    | some t =>
      if s1.por || !t.phase.openAt s1.now then s1 else (s1.txnEnds t (some value)).settle
    | none => s1)

/-- A no-answer: a further attempt begins, or the transaction ends NO_ANSWER (R152). -/
def State.noAnswer (s : State) (t : Txn) : State :=
  if t.attempts ≤ t.retries then
    let t1 := { t with attempts := t.attempts + 1, phase := .sending }
    { s with bus := { s.bus with txn := some t1 } }.count .ampRetriesCount 1
  else (s.count .ampNoAnswer 1).txnEnds t none

/-- ANSWER_WINDOW_EXPIRY. Outside an answer window there is none. -/
def execAnswerWindowExpiry (s : State) : Host.Outcome State Fault Refusal :=
  .next (match s.bus.txn with
    | some t =>
      match t.phase with
      | .sending => s
      | .window endsAt => if s.por then s else ((s.waitUntil endsAt).noAnswer t).settle
    | none => s)

/-! ## Relayed accesses (R160) -/

/-- MODULE_READ and MODULE_WRITE: the entry is checked and enters the relay queue. -/
def State.relay (s : State) (x : RelayEntry) : Acted :=
  if x.address = 0 || 31 < x.address || 15 < x.register then .plain .badArgument s
  else if 4 ≤ s.bus.queue.length then .plain .busy s
  else .relayed ({ s with bus := { s.bus with queue := s.bus.queue ++ [x] } }.kickBus)

/-- MODULE_READ (R160), received on link `l` under a tag. -/
def actModuleRead (l : Link) (tag : Tag) (address register : Octet) (s : State) : Acted :=
  s.relay {
    link := l, tag := tag, address := address.toNat, register := register.toNat, value := none,
    underWay := false, wanted := true }

def execModuleRead (l : Link) (tag : Tag) (address register : Octet) (s : State) :
    Host.Outcome State Fault Refusal :=
  .next (s.request l ⟨tag, 0x80, [address, register]⟩ (actModuleRead l tag address register))

/-- MODULE_WRITE (R160), received on link `l` under a tag. -/
def actModuleWrite (l : Link) (tag : Tag) (address register : Octet) (value : BitVec 16) (s : State) :
    Acted :=
  s.relay {
    link := l, tag := tag, address := address.toNat, register := register.toNat, value := some value,
    underWay := false, wanted := true }

def execModuleWrite (l : Link) (tag : Tag) (address register : Octet) (value : BitVec 16) (s : State) :
    Host.Outcome State Fault Refusal :=
  .next (s.request l ⟨tag, 0x81, address :: register :: octetsBE 2 value.toNat⟩
    (actModuleWrite l tag address register value))

/-! ## The scan range (R159) -/

/-- The records after the range becomes `first..last`: an address that leaves it becomes UNKNOWN. -/
def Bus.tableFor (b : Bus) (first last : Nat) : Vector ScanRec 31 :=
  b.table.mapIdx fun i r =>
    if b.inRange (i + 1) && !(first ≤ i + 1 && i + 1 ≤ last) then ScanRec.reset else r

/-- An address leaves the range in a state other than UNKNOWN. -/
def Bus.someLeaves (b : Bus) (first last : Nat) : Bool :=
  (List.range 32).any fun a =>
    b.inRange a && !(first ≤ a && a ≤ last) && (b.record a).st ≠ .unknown

/-- The range becomes `first..last`, another than before. -/
def Bus.setRange (b : Bus) (first last : Nat) : Bus :=
  { b with
    first := first
    last := last
    pos := first
    table := b.tableFor first last
    txn := b.txn.map fun t => { t with rangeChanged := t.scan || t.rangeChanged } }

/-- SET_SCAN acts on the range. -/
def State.changeRange (s : State) (first last : Nat) : State :=
  if first = s.bus.first && last = s.bus.last then s
  else
    { s with bus := s.bus.setRange first last }.raiseIf (s.bus.someLeaves first last) .moduleChange

/-- SET_SCAN (R159). -/
def actSetScan (first last min_ : Octet) (s : State) : Acted :=
  if first = 0 || last.toNat < first.toNat || 31 < last.toNat then .plain .badArgument s
  else
    let m := min 31 min_.toNat
    .answered .ok (octetsBE 1 first.toNat ++ octetsBE 1 last.toNat ++ octetsBE 1 m)
      ({ s with params := { s.params with minModules := m } }.changeRange first.toNat last.toNat)

def execSetScan (l : Link) (tag : Tag) (first last min_ : Octet) (s : State) :
    Host.Outcome State Fault Refusal :=
  .next (s.request l ⟨tag, 0x83, [first, last, min_]⟩ (actSetScan first last min_))

/-! ## Reading (R163) -/

def RelayEntry.encode (x : RelayEntry) : List Octet :=
  encLink x.link ++ encFlag x.value.isSome ++ octetsBE 1 x.address ++ octetsBE 1 x.register ++
    encFlag x.underWay ++ encFlag x.wanted

/-- The number of addresses in a module state. -/
def Bus.inState (b : Bus) (st : ModuleState) : Nat := b.table.toList.countP (·.st = st)

/-- The transaction in progress is a scan read. -/
def Bus.scanning (b : Bus) : Bool := (b.txn.map (·.scan)).getD false

/-- The bus's summary (R163, part 0). -/
def State.busSummary (s : State) : List Octet :=
  let b := s.bus
  octetsBE 1 b.first ++ octetsBE 1 b.last ++ encParam s.params.scanEnable.toNat ++
    encParam s.params.minModules ++ octetsBE 1 b.pos ++ octetsBE 1 b.contributing ++ encFlag b.alarm ++
    octetsBE 1 (b.inState .unknown) ++ octetsBE 1 (b.inState .ok) ++ octetsBE 1 (b.inState .warning) ++
    octetsBE 1 (b.inState .fault) ++ octetsBE 1 (b.inState .silent) ++
    encFlag b.txn.isSome ++ encFlag b.scanning ++ encFlag (!b.queue.isEmpty) ++
    encList RelayEntry.encode b.queue

def ScanRec.encode (r : ScanRec) : List Octet :=
  encModuleState r.st ++ encOption (fun w : BitVec 16 => octetsBE 2 w.toNat) r.status ++
    octetsBE 1 r.passes

/-- READ_MODULES (R163). -/
def actReadModules (part : Octet) (s : State) : Acted :=
  if part = 0 then .answered .ok s.busSummary s
  else if 31 < part.toNat then .plain .badArgument s
  else .answered .ok (s.bus.record part.toNat).encode s

def execReadModules (l : Link) (tag : Tag) (part : Octet) (s : State) :
    Host.Outcome State Fault Refusal :=
  .next (s.request l ⟨tag, 0x82, [part]⟩ (actReadModules part))

/-! ## The bus at a station restart with carry-over (R164, R165) -/

/-- The table and the queue are cleared, the transaction in progress is abandoned, and the scan begins
at first if SCAN_ENABLE is on. -/
def State.restartBus (s : State) : State :=
  { s with bus := { s.bus with
      table := Vector.replicate 31 ScanRec.reset
      queue := []
      txn := none
      pos := s.bus.first } }.chooseNext

end Sys2Proof.Machine
end

