-- ==== Sys2Proof/Machine/Params.lean ====
section
/-! DEFINITION. The parameters (R216): their ranges and defaults, SET_PARAM and READ_PARAM. -/

namespace Sys2Proof.Machine

/-- A row of the parameter table: the ends of the range and the default. A setting has off as 0 and on
as 1. -/
structure ParamRow where
  lo : Nat
  hi : Nat
  default : Nat
  deriving DecidableEq, Repr

/-- The parameter table, in order of id. -/
def paramTable : List ParamRow :=
  [ ⟨10, 5000, 200⟩, ⟨4, 255, 16⟩, ⟨1, 16, 4⟩, ⟨1, 10000, 100⟩, ⟨1, 1000, 64⟩, ⟨512, 1023, 1000⟩,
    ⟨5, 50, 15⟩, ⟨1, 60, 15⟩, ⟨1, 15, 3⟩, ⟨1, 15, 2⟩, ⟨0, 3, 2⟩, ⟨0, 31, 0⟩, ⟨1, 4, 1⟩, ⟨1, 4, 1⟩,
    ⟨0, 1, 0⟩, ⟨0, 1, 1⟩, ⟨0, 1, 1⟩ ]

/-- The value taken for a written one: the nearest end of the range if it lies outside. -/
def ParamRow.take (r : ParamRow) (v : Nat) : Nat := max r.lo (min r.hi v)

/-- The stored value of a parameter, by id. -/
def Params.get (p : Params) : Nat → Nat
  | 0 => p.qualWindow
  | 1 => p.qualCount
  | 2 => p.disqCount
  | 3 => p.refAgree
  | 4 => p.slew
  | 5 => p.fullLevel
  | 6 => p.depth
  | 7 => p.tickPeriod
  | 8 => p.lofSet
  | 9 => p.lofClear
  | 10 => p.ampRetries
  | 11 => p.minModules
  | 12 => p.arbWeightA
  | 13 => p.arbWeightB
  | 14 => p.carryOver.toNat
  | 15 => p.monitorEnable.toNat
  | 16 => p.scanEnable.toNat
  | _ => 0

/-- A value is stored under an id. -/
def Params.put (p : Params) (id v : Nat) : Params :=
  match id with
  | 0 => { p with qualWindow := v }
  | 1 => { p with qualCount := v }
  | 2 => { p with disqCount := v }
  | 3 => { p with refAgree := v }
  | 4 => { p with slew := v }
  | 5 => { p with fullLevel := v }
  | 6 => { p with depth := v }
  | 7 => { p with tickPeriod := v }
  | 8 => { p with lofSet := v }
  | 9 => { p with lofClear := v }
  | 10 => { p with ampRetries := v }
  | 11 => { p with minModules := v }
  | 12 => { p with arbWeightA := v }
  | 13 => { p with arbWeightB := v }
  | 14 => { p with carryOver := v != 0 }
  | 15 => { p with monitorEnable := v != 0 }
  | 16 => { p with scanEnable := v != 0 }
  | _ => p

/-- A change of MONITOR_ENABLE between `s0` and `s` acts on the monitor (R167). -/
def State.monitorEnableChange (s0 s : State) : State :=
  match s0.params.monitorEnable, s.params.monitorEnable with
  | true, false => { s with mon := s.mon.turnOff }
  | false, true => { s with mon := s.mon.turnOn s.monIn s.now s.key.mode }
  | false, false => s
  | true, true => s

/-- A change of SCAN_ENABLE to on starts a scan read if the bus is idle (R156). -/
def State.scanEnableChange (s0 s : State) : State :=
  if !s0.params.scanEnable && s.params.scanEnable then s.kickBus else s

/-- The value `v` is stored under an id, and the owning block acts on a change of its setting. The levels
in use are not loaded (R3; DEDUCED, log 20). -/
def State.storeParam (s : State) (id v : Nat) : State :=
  let s1 := { s with params := s.params.put id v }
  s.scanEnableChange (s.monitorEnableChange s1)

/-- SET_PARAM (R216). -/
def actSetParam (id : Octet) (value : BitVec 16) (s : State) : Acted :=
  match paramTable[id.toNat]? with
  | none => .plain .badArgument s
  | some r =>
    let v := r.take value.toNat
    .answered .ok (id :: encParam v) (s.storeParam id.toNat v)

def execSetParam (l : Link) (tag : Tag) (id : Octet) (value : BitVec 16) (s : State) :
    Host.Outcome State Fault Refusal :=
  .next (s.request l ⟨tag, 0x90, id :: octetsBE 2 value.toNat⟩ (actSetParam id value))

/-- READ_PARAM (R216). The range is given as its lower end and then its upper end, a setting's as 0 and 1
(DESIGN CHOICE, log 7). -/
def actReadParam (id : Octet) (s : State) : Acted :=
  match paramTable[id.toNat]? with
  | none => .plain .badArgument s
  | some r =>
    .answered .ok
      (id :: encParam (s.params.get id.toNat) ++ encParam r.lo ++ encParam r.hi ++ encParam r.default) s

def execReadParam (l : Link) (tag : Tag) (id : Octet) (s : State) : Host.Outcome State Fault Refusal :=
  .next (s.request l ⟨tag, 0x91, [id]⟩ (actReadParam id))

end Sys2Proof.Machine
end

