-- ==== Sys2Proof/Machine/Resets.lean ====
section
/-! DEFINITION. The three kinds of reset (R217..R220) with their triggers, and the line events of the
control links. -/

namespace Sys2Proof.Machine

/-! ## Power-on values (R41, R61, R88, R110, R133, R149, R164, R186, R204, R220) -/

/-- Every block takes its power-on values; the levels of the input lines are as they are. Counting
starts at this instant, so the presence of FREQ_IN is counted from it (R41), and the model's count of
cycles with it (DESIGN CHOICE, log 19). -/
def State.powerUp (s : State) : State :=
  let src := if s.freqPresent then Source.station else Source.standby
  State.resetViews
    { State.reset with
      por := false
      txReady := s.txReady
      monIn := s.monIn
      freqFrom := s.freqFrom - s.now
      tb := { Timebase.reset with source := src }
      mon := { Monitor.reset with det := detectorAtStart s.monIn }
      pending := s.pending
      freeCount := s.freeCount }

/-! ## Link reset (R162, R206, R217) -/

/-- The relay entries of a link are carried out without a response. -/
def Bus.unwanted (b : Bus) (l : Link) : Bus :=
  { b with queue := b.queue.map fun x => if x.link = l then { x with wanted := false } else x }

/-- The view and the mask of a link are reset (R206). -/
def State.resetView (s : State) (l : Link) : State :=
  { s with cond := (s.cond.setView l (s.cond.active.setWidth 25)).setMask l alertMaskDefault }

/-- The link itself returns to its reset values, and its relay responses are no longer wanted. -/
def State.clearLink (s : State) (l : Link) : State :=
  { s with bus := s.bus.unwanted l }.setLink l LinkState.reset

/-! ## Station restart (R205, R218, R219) -/

/-- The conditions block keeps its thresholds, its fault mask and its active set. -/
def Conditions.carryOver (c : Conditions) : Conditions :=
  { Conditions.reset with active := c.active, faultMask := c.faultMask, thresholds := c.thresholds }

/-- The monitor is reset while the keyer runs on (R187); its detector stands by MON_IN even if it is off
(DEDUCED, log 23). -/
def State.monitorRestart (s : State) : Monitor :=
  let m := { Monitor.reset with det := detectorAtStart s.monIn }
  if s.params.monitorEnable then m.turnOn s.monIn s.now s.key.mode else m

/-- A station restart with CARRY_OVER on. -/
def State.restartKeeping (s : State) : State :=
  let s1 := State.restartBus
    { s with
      linkA := LinkState.reset
      linkB := LinkState.reset
      exe := Executor.reset
      mon := s.monitorRestart
      cond := s.cond.carryOver }
  s1.resetViews

/-- A station restart, of the kind that CARRY_OVER gives as it stands now. -/
def State.stationRestart (s : State) : State :=
  if s.params.carryOver then s.restartKeeping else s.powerUp

/-! ## Line events of the resets -/

/-- POWER_ON_RESET_ASSERT: POR_N goes to 0, and the part stands still. -/
def execPowerOnResetAssert (dt : Nat) (s : State) : Host.Outcome State Fault Refusal :=
  .next { s.wait dt with por := true }

/-- POWER_ON_RESET: the rise of POR_N, at which the blocks start. -/
def execPowerOnReset (dt : Nat) (s : State) : Host.Outcome State Fault Refusal :=
  .next (s.wait dt).powerUp

/-- RESTART_N_FALL (R218). While POR_N is at 0 it makes no restart (R220). -/
def execRestartNFall (dt : Nat) (s : State) : Host.Outcome State Fault Refusal :=
  let s1 := s.wait dt
  .next (if s1.por then s1 else s1.stationRestart)

/-- AWAITED_RESTART (R218). While none is awaited there is none. -/
def execAwaitedRestart (dt : Nat) (s : State) : Host.Outcome State Fault Refusal :=
  let s1 := s.wait dt
  .next (if s1.por || !s1.exe.restartAwaited then s1 else s1.stationRestart)

/-- The OK response of a RESTART (R218; DESIGN CHOICE, log 12). -/
def Response.restartOk (r : Response) : Bool := r.code = 0x92 && r.result = .ok && !r.atOnce

/-- A link reset; if it empties the response of an awaited restart, the restart is made instead (R218). -/
def State.linkReset (s : State) (l : Link) : State :=
  if s.exe.restartAwaited && (s.link l).output.any Response.restartOk then
    ((s.clearLink l).resetView l).stationRestart
  else (s.clearLink l).resetView l

/-- LINK_BREAK (R217). -/
def execLinkBreak (l : Link) (dt : Nat) (s : State) : Host.Outcome State Fault Refusal :=
  let s1 := s.wait dt
  .next (if s1.por then s1 else s1.linkReset l)

/-! ## The response output (R211, R218) -/

/-- The first element that satisfies `p` is removed. -/
def removeFirst {α : Type} (p : α → Bool) : List α → List α
  | [] => []
  | x :: xs => if p x then xs else x :: removeFirst p xs

/-- The entry can be the one that the response `r` answers: it is ANSWERED, has its TAG and CODE, and is
a relay's exactly if `r` is. Of several, `r` answers the oldest: requests are executed in the order of
their entries (R212), and relays end in the order in which they began (R153). -/
def Outstanding.answeredBy (r : Response) (e : Outstanding) : Bool :=
  !r.atOnce && e.st = .answered && e.req.tag = r.tag && e.req.code = r.code && e.relayed = r.relayed

/-- The oldest response of a link has gone out, and its own entry leaves the outstanding list (R211). -/
def LinkState.sent (ls : LinkState) (r : Response) : LinkState :=
  { ls with
    output := ls.output.tail
    outstanding := removeFirst (Outstanding.answeredBy r) ls.outstanding }

/-- RESPONSE_SENT: the last octet of the oldest response has been sent; a restart awaited on it is made.
An empty output sends nothing. -/
def execResponseSent (l : Link) (dt : Nat) (s : State) : Host.Outcome State Fault Refusal :=
  let s1 := s.wait dt
  .next (match (s1.link l).output with
    | [] => s1
    | r :: _ =>
      if s1.por then s1
      else
        let s2 := s1.setLink l ((s1.link l).sent r)
        if s1.exe.restartAwaited && r.restartOk then s2.stationRestart else s2)

/-! ## The receive lines (R208, R210) -/

/-- LINK_FRAME_RECEIVED: the octets pass through the parser in order, now (DESIGN CHOICE, log 26). -/
def execLinkFrameReceived (l : Link) (octets : List Octet) (dt : Nat) (s : State) :
    Host.Outcome State Fault Refusal :=
  let s1 := s.wait dt
  .next (if s1.por then s1 else octets.foldl (fun s o => s.rxOctet l o) s1)

/-- The parser of a link holds a frame in progress. -/
def State.receiving (s : State) (l : Link) : Bool := (s.link l).rx ≠ .hunt

/-- LINK_GAP_EXPIRY. In HUNT the gap timer does not run. -/
def execLinkGapExpiry (l : Link) (s : State) : Host.Outcome State Fault Refusal :=
  .next (if s.por || !s.receiving l then s
    else (s.waitUntil (s.link l).gapAt).rxDiscard l)

/-- LINK_FRAMING_ERROR. In HUNT the octet is ignored. -/
def execLinkFramingError (l : Link) (dt : Nat) (s : State) : Host.Outcome State Fault Refusal :=
  let s1 := s.wait dt
  .next (if s1.por || !s1.receiving l then s1 else s1.rxDiscard l)

/-- LENGTH_OCTET_INVALID: an octet that LENGTH does not take. -/
def execLengthOctetInvalid (l : Link) (octet : Octet) (dt : Nat) (s : State) :
    Host.Outcome State Fault Refusal :=
  let s1 := s.wait dt
  .next (if s1.por then s1 else s1.rxOctet l octet)

/-! ## RESTART (R218) -/

/-- RESTART: answered with CARRY_OVER, and the restart is awaited. -/
def actRestart (s : State) : Acted :=
  .answered .ok (encParam s.params.carryOver.toNat) { s with exe := { s.exe with restartAwaited := true } }

def execRestart (l : Link) (tag : Tag) (s : State) : Host.Outcome State Fault Refusal :=
  .next (s.request l ⟨tag, 0x92, []⟩ actRestart)

end Sys2Proof.Machine
end

