-- ==== Sys2Proof/Machine/Dispatch.lean ====
section
/-! DEFINITION. The meaning of every command: one arm for each constructor. -/

namespace Sys2Proof.Machine

def exec (i : Instr) (s : State) : Host.Outcome State Fault Refusal :=
  match i with
  | .powerOnResetAssert dt => Sys2Proof.Machine.execPowerOnResetAssert dt s
  | .powerOnReset dt => Sys2Proof.Machine.execPowerOnReset dt s
  | .restartNFall dt => Sys2Proof.Machine.execRestartNFall dt s
  | .awaitedRestart dt => Sys2Proof.Machine.execAwaitedRestart dt s
  | .linkBreak l dt => Sys2Proof.Machine.execLinkBreak l dt s
  | .linkFrameReceived l octets dt => Sys2Proof.Machine.execLinkFrameReceived l octets dt s
  | .linkGapExpiry l => Sys2Proof.Machine.execLinkGapExpiry l s
  | .linkFramingError l dt => Sys2Proof.Machine.execLinkFramingError l dt s
  | .responseSent l dt => Sys2Proof.Machine.execResponseSent l dt s
  | .readStatus l tag => Sys2Proof.Machine.execReadStatus l tag s
  | .setAlertMask l tag set => Sys2Proof.Machine.execSetAlertMask l tag set s
  | .setFaultMask l tag set => Sys2Proof.Machine.execSetFaultMask l tag set s
  | .readCounters l tag part => Sys2Proof.Machine.execReadCounters l tag part s
  | .tickNow l tag => Sys2Proof.Machine.execTickNow l tag s
  | .setThreshold l tag id value => Sys2Proof.Machine.execSetThreshold l tag id value s
  | .readTime l tag => Sys2Proof.Machine.execReadTime l tag s
  | .stepTime l tag day second => Sys2Proof.Machine.execStepTime l tag day second s
  | .selectReference l tag choice => Sys2Proof.Machine.execSelectReference l tag choice s
  | .setRefEnable l tag port setting => Sys2Proof.Machine.execSetRefEnable l tag port setting s
  | .setSelectMode l tag mode => Sys2Proof.Machine.execSetSelectMode l tag mode s
  | .readReferences l tag => Sys2Proof.Machine.execReadReferences l tag s
  | .setSynth l tag n k p b => Sys2Proof.Machine.execSetSynth l tag n k p b s
  | .synthOn l tag => Sys2Proof.Machine.execSynthOn l tag s
  | .synthOff l tag => Sys2Proof.Machine.execSynthOff l tag s
  | .readSynth l tag => Sys2Proof.Machine.execReadSynth l tag s
  | .setMode l tag mode => Sys2Proof.Machine.execSetMode l tag mode s
  | .killCarrier l tag => Sys2Proof.Machine.execKillCarrier l tag s
  | .setHold l tag setting => Sys2Proof.Machine.execSetHold l tag setting s
  | .maintenance l tag endDay endMinute => Sys2Proof.Machine.execMaintenance l tag endDay endMinute s
  | .readKeyer l tag part => Sys2Proof.Machine.execReadKeyer l tag part s
  | .postChange l tag kind day minute zone lead => Sys2Proof.Machine.execPostChange l tag kind day minute zone lead s
  | .withdrawChange l tag number => Sys2Proof.Machine.execWithdrawChange l tag number s
  | .readSchedule l tag position => Sys2Proof.Machine.execReadSchedule l tag position s
  | .readRetired l tag position => Sys2Proof.Machine.execReadRetired l tag position s
  | .setZone l tag index offset => Sys2Proof.Machine.execSetZone l tag index offset s
  | .selectZone l tag index => Sys2Proof.Machine.execSelectZone l tag index s
  | .writeNotice l tag slot text => Sys2Proof.Machine.execWriteNotice l tag slot text s
  | .selectNotice l tag slot => Sys2Proof.Machine.execSelectNotice l tag slot s
  | .readNotice l tag part => Sys2Proof.Machine.execReadNotice l tag part s
  | .readMonitor l tag part => Sys2Proof.Machine.execReadMonitor l tag part s
  | .injectMonitorError l tag => Sys2Proof.Machine.execInjectMonitorError l tag s
  | .moduleRead l tag address register => Sys2Proof.Machine.execModuleRead l tag address register s
  | .moduleWrite l tag address register value => Sys2Proof.Machine.execModuleWrite l tag address register value s
  | .readModules l tag part => Sys2Proof.Machine.execReadModules l tag part s
  | .setScan l tag first last min => Sys2Proof.Machine.execSetScan l tag first last min s
  | .setParam l tag id value => Sys2Proof.Machine.execSetParam l tag id value s
  | .readParam l tag id => Sys2Proof.Machine.execReadParam l tag id s
  | .restart l tag => Sys2Proof.Machine.execRestart l tag s
  | .secondEdge => Sys2Proof.Machine.execSecondEdge s
  | .markIntervalEnd => Sys2Proof.Machine.execMarkIntervalEnd s
  | .freqInAbsent absentFor dt => Sys2Proof.Machine.execFreqInAbsent absentFor dt s
  | .freqInReturn => Sys2Proof.Machine.execFreqInReturn s
  | .refPulse p dt => Sys2Proof.Machine.execRefPulse p dt s
  | .phaseStepHoldExpiry => Sys2Proof.Machine.execPhaseStepHoldExpiry s
  | .refMessage p octets dt => Sys2Proof.Machine.execRefMessage p octets dt s
  | .refMsgGapExpiry p => Sys2Proof.Machine.execRefMsgGapExpiry p s
  | .refMsgFramingError p dt => Sys2Proof.Machine.execRefMsgFramingError p dt s
  | .pulseWatchExpiry p => Sys2Proof.Machine.execPulseWatchExpiry p s
  | .comparisonPeriodEnd num den => Sys2Proof.Machine.execComparisonPeriodEnd num den s
  | .txReadyChange level dt => Sys2Proof.Machine.execTxReadyChange level dt s
  | .attemptSent dt => Sys2Proof.Machine.execAttemptSent dt s
  | .moduleAnswer value dt => Sys2Proof.Machine.execModuleAnswer value dt s
  | .answerWindowExpiry => Sys2Proof.Machine.execAnswerWindowExpiry s
  | .monInRise dt => Sys2Proof.Machine.execMonInRise dt s
  | .monInFall dt => Sys2Proof.Machine.execMonInFall dt s
  | .markQuietClose => Sys2Proof.Machine.execMarkQuietClose s
  | .markLongClose => Sys2Proof.Machine.execMarkLongClose s
  | .frameTimerExpiry => Sys2Proof.Machine.execFrameTimerExpiry s
  | .lengthOctetInvalid l octet dt => Sys2Proof.Machine.execLengthOctetInvalid l octet dt s

end Sys2Proof.Machine
end

