-- ==== Sys2Proof/WellFormed.lean ====
section
/-! DEFINITION. Which commands are well formed: operands that a line or a link can carry. -/

namespace Sys2Proof

/-- A command that the lines of the part can carry. A request's fixed-width arguments always fit;
a notice text must fit a body of 60 octets behind TAG, CODE, slot and length (R209, R215); a phase
difference is a fraction with a denominator; a received run of octets is not empty; the octet of
LENGTH_OCTET_INVALID is not 3..60 (R208). -/
def Instr.wellFormed : Instr → Bool
  | .writeNotice _ _ _ text => text.length ≤ 55
  | .linkFrameReceived _ octets _ => octets != []
  | .refMessage _ octets _ => octets != []
  | .comparisonPeriodEnd _ den => 0 < den
  | .lengthOctetInvalid _ o _ => !(3 ≤ o.toNat && o.toNat ≤ 60)
  | .powerOnResetAssert _ | .powerOnReset _ | .restartNFall _ | .awaitedRestart _ | .linkBreak _ _
  | .linkGapExpiry _ | .linkFramingError _ _ | .responseSent _ _ | .readStatus _ _
  | .setAlertMask _ _ _ | .setFaultMask _ _ _ | .readCounters _ _ _ | .tickNow _ _
  | .setThreshold _ _ _ _ | .readTime _ _ | .stepTime _ _ _ _ | .selectReference _ _ _
  | .setRefEnable _ _ _ _ | .setSelectMode _ _ _ | .readReferences _ _ | .setSynth _ _ _ _ _ _
  | .synthOn _ _ | .synthOff _ _ | .readSynth _ _ | .setMode _ _ _ | .killCarrier _ _
  | .setHold _ _ _ | .maintenance _ _ _ _ | .readKeyer _ _ _ | .postChange _ _ _ _ _ _ _
  | .withdrawChange _ _ _ | .readSchedule _ _ _ | .readRetired _ _ _ | .setZone _ _ _ _
  | .selectZone _ _ _ | .selectNotice _ _ _ | .readNotice _ _ _ | .readMonitor _ _ _
  | .injectMonitorError _ _ | .moduleRead _ _ _ _ | .moduleWrite _ _ _ _ _ | .readModules _ _ _
  | .setScan _ _ _ _ _ | .setParam _ _ _ _ | .readParam _ _ _ | .restart _ _ | .secondEdge
  | .markIntervalEnd | .freqInAbsent _ _ | .freqInReturn | .refPulse _ _ | .phaseStepHoldExpiry
  | .refMsgGapExpiry _ | .refMsgFramingError _ _ | .pulseWatchExpiry _ | .txReadyChange _ _
  | .attemptSent _ | .moduleAnswer _ _ | .answerWindowExpiry | .monInRise _ | .monInFall _
  | .markQuietClose | .markLongClose | .frameTimerExpiry => true

end Sys2Proof
end

