-- ==== Sys2Proof/Safety.lean ====
section
/-! DEFINITION. The terms in which claims about the WZ416 are made: which request a command executes,
what an answered request leaves, and the invariants that every step keeps. -/

namespace Sys2Proof

open Sys2Proof.Machine

/-- The request that a request command executes, with its link: CODE and argument octets by the
catalogue (R215). Line and timer events execute none. -/
def Instr.asRequest : Instr → Option (Link × Request)
  | .readStatus l tag => some (l, ⟨tag, 0x01, []⟩)
  | .setAlertMask l tag set => some (l, ⟨tag, 0x02, octetsBE 4 set.toNat⟩)
  | .setFaultMask l tag set => some (l, ⟨tag, 0x03, octetsBE 4 set.toNat⟩)
  | .readCounters l tag part => some (l, ⟨tag, 0x04, [part]⟩)
  | .tickNow l tag => some (l, ⟨tag, 0x05, []⟩)
  | .setThreshold l tag id value => some (l, ⟨tag, 0x06, id :: octetsBE 4 value.toNat⟩)
  | .readTime l tag => some (l, ⟨tag, 0x10, []⟩)
  | .stepTime l tag day second =>
    some (l, ⟨tag, 0x11, octetsBE 2 day.toNat ++ octetsBE 3 second.toNat⟩)
  | .selectReference l tag choice => some (l, ⟨tag, 0x20, [choice]⟩)
  | .setRefEnable l tag port setting => some (l, ⟨tag, 0x21, [port, setting]⟩)
  | .setSelectMode l tag mode => some (l, ⟨tag, 0x22, [mode]⟩)
  | .readReferences l tag => some (l, ⟨tag, 0x23, []⟩)
  | .setSynth l tag n k p b =>
    some (l, ⟨tag, 0x30, octetsBE 2 n.toNat ++ octetsBE 2 k.toNat ++ [p, b]⟩)
  | .synthOn l tag => some (l, ⟨tag, 0x31, []⟩)
  | .synthOff l tag => some (l, ⟨tag, 0x32, []⟩)
  | .readSynth l tag => some (l, ⟨tag, 0x33, []⟩)
  | .setMode l tag mode => some (l, ⟨tag, 0x40, [mode]⟩)
  | .killCarrier l tag => some (l, ⟨tag, 0x41, []⟩)
  | .setHold l tag setting => some (l, ⟨tag, 0x42, [setting]⟩)
  | .maintenance l tag endDay endMinute =>
    some (l, ⟨tag, 0x43, octetsBE 2 endDay.toNat ++ octetsBE 2 endMinute.toNat⟩)
  | .readKeyer l tag part => some (l, ⟨tag, 0x44, [part]⟩)
  | .postChange l tag kind day minute zone lead =>
    some (l, ⟨tag, 0x50,
      kind :: octetsBE 2 day.toNat ++ octetsBE 2 minute.toNat ++ zone :: octetsBE 2 lead.toNat⟩)
  | .withdrawChange l tag number => some (l, ⟨tag, 0x51, [number]⟩)
  | .readSchedule l tag position => some (l, ⟨tag, 0x52, [position]⟩)
  | .readRetired l tag position => some (l, ⟨tag, 0x53, [position]⟩)
  | .setZone l tag index offset => some (l, ⟨tag, 0x54, [index, offset]⟩)
  | .selectZone l tag index => some (l, ⟨tag, 0x55, [index]⟩)
  | .writeNotice l tag slot text => some (l, ⟨tag, 0x60, slot :: encString text⟩)
  | .selectNotice l tag slot => some (l, ⟨tag, 0x61, [slot]⟩)
  | .readNotice l tag part => some (l, ⟨tag, 0x62, [part]⟩)
  | .readMonitor l tag part => some (l, ⟨tag, 0x70, [part]⟩)
  | .injectMonitorError l tag => some (l, ⟨tag, 0x71, []⟩)
  | .moduleRead l tag address register => some (l, ⟨tag, 0x80, [address, register]⟩)
  | .moduleWrite l tag address register value =>
    some (l, ⟨tag, 0x81, address :: register :: octetsBE 2 value.toNat⟩)
  | .readModules l tag part => some (l, ⟨tag, 0x82, [part]⟩)
  | .setScan l tag first last min_ => some (l, ⟨tag, 0x83, [first, last, min_]⟩)
  | .setParam l tag id value => some (l, ⟨tag, 0x90, id :: octetsBE 2 value.toNat⟩)
  | .readParam l tag id => some (l, ⟨tag, 0x91, [id]⟩)
  | .restart l tag => some (l, ⟨tag, 0x92, []⟩)
  | .powerOnResetAssert _ | .powerOnReset _ | .restartNFall _ | .awaitedRestart _ | .linkBreak _ _
  | .linkFrameReceived _ _ _ | .linkGapExpiry _ | .linkFramingError _ _ | .responseSent _ _
  | .secondEdge | .markIntervalEnd | .freqInAbsent _ _ | .freqInReturn | .refPulse _ _
  | .phaseStepHoldExpiry | .refMessage _ _ _ | .refMsgGapExpiry _ | .refMsgFramingError _ _
  | .pulseWatchExpiry _ | .comparisonPeriodEnd _ _ | .txReadyChange _ _ | .attemptSent _
  | .moduleAnswer _ _ | .answerWindowExpiry | .monInRise _ | .monInFall _ | .markQuietClose
  | .markLongClose | .frameTimerExpiry | .lengthOctetInvalid _ _ _ => none

end Sys2Proof

namespace Sys2Proof.Machine

/-! ## Executed requests (R210..R213) -/

/-- The executor takes up `c`: its request is the oldest WAITING one of its link, and R212 serves that
link next. -/
def State.takesUp (s : State) (c : Instr) : Bool :=
  !s.por && c.asRequest.isSome && s.choice = c.asRequest

/-- What a request of link `l` leaves when it is answered `r` with `data` and its owning block changes
the state by `block`: the executor has served the link, the block has acted, the response stands at the
end of the link's output, the entry is ANSWERED, and the conditions are up to date. -/
def State.afterAnswer (s : State) (l : Link) (q : Request) (r : Result) (data : List Octet)
    (block : State → State) : State :=
  ((block { s with exe := s.exe.serve l }).respond l .waiting q.tag q.code r data).settle

/-- Executing `c` answers its request `r` with `data`, and changes by `block` what its owning block
holds. -/
def State.Answers (s : State) (c : Instr) (r : Result) (data : List Octet) (block : State → State) :
    Prop :=
  ∃ l q, c.asRequest = some (l, q) ∧ exec c s = .next (s.afterAnswer l q r data block)

/-- Executing `c` answers its request `r` with `data`, and its owning block leaves `x`: the next state is
`x` with the response at the end of the link's output, the entry ANSWERED, the executor's turn moved on
from that of `s`, and the conditions up to date. -/
def State.AnswersWith (s : State) (c : Instr) (r : Result) (data : List Octet) (x : State) : Prop :=
  ∃ l q, c.asRequest = some (l, q) ∧ exec c s =
    .next (({ x with exe := s.exe.serve l }.respond l .waiting q.tag q.code r data).settle)

/-- Executing `c` refuses its request with `r`, and no block changes. -/
def State.Refuses (s : State) (c : Instr) (r : Result) : Prop := s.Answers c r [] id

/-! ## Transactions of the amplifier bus (R151, R152, R153) -/

/-- A transaction that begins with its first attempt, on the AMP_RETRIES of `s` (R152). -/
def State.firstAttempt (s : State) (scan : Bool) (address register : Nat)
    (value : Option (BitVec 16)) : Txn where
  scan := scan
  address := address
  register := register
  value := value
  retries := s.params.ampRetries
  attempts := 1
  phase := .sending
  rangeChanged := false

/-- The bus of `t` goes on after a transaction of `s` that ended with the relay entries `rest` waiting: the
oldest of them begins, else a scan read of the scan position if SCAN_ENABLE is on, else nothing (R153). The
scan range stays. -/
def State.GoesOn (s t : State) (rest : List RelayEntry) : Prop :=
  (∀ z zs, rest = z :: zs →
    t.bus.queue = { z with underWay := true } :: zs ∧
    t.bus.txn = some (s.firstAttempt false z.address z.register z.value)) ∧
  (rest = [] → t.bus.queue = [] ∧
    t.bus.txn = if s.params.scanEnable then some (s.firstAttempt true t.bus.pos 0 none) else none) ∧
  (t.bus.first, t.bus.last) = (s.bus.first, s.bus.last)

/-- The amplifier bus is in the order of Chapter 8: it is idle only with the scan off and no relay waiting
(R156, R163); during a scan read, of register 0, no relay entry is under way, and the read is of the scan
position unless the range has changed meanwhile (R155, R159); another transaction is that of the oldest
entry, the one under way (R160, R161); its attempts are within its retries (R152); and the range, the
position and the queued addresses are those that the requests admit (R159, R160). -/
structure State.BusOrdered (s : State) : Prop where
  idle : s.bus.txn = none → s.bus.queue = [] ∧ s.params.scanEnable = false
  scan : ∀ x, s.bus.txn = some x → x.scan = true →
    (∀ z ∈ s.bus.queue, z.underWay = false) ∧ x.register = 0 ∧ x.value = none ∧
      1 ≤ x.address ∧ x.address ≤ 31 ∧ (x.rangeChanged = false → x.address = s.bus.pos)
  relay : ∀ x, s.bus.txn = some x → x.scan = false → ∃ y rest, s.bus.queue = y :: rest ∧
    y.underWay = true ∧ (∀ z ∈ rest, z.underWay = false) ∧
      (x.address, x.register, x.value) = (y.address, y.register, y.value)
  attempts : ∀ x, s.bus.txn = some x → 1 ≤ x.attempts ∧ x.attempts ≤ x.retries + 1
  range : 1 ≤ s.bus.first ∧ s.bus.first ≤ s.bus.pos ∧ s.bus.pos ≤ s.bus.last ∧ s.bus.last ≤ 31
  queued : ∀ z ∈ s.bus.queue, 1 ≤ z.address ∧ z.address ≤ 31 ∧ z.register ≤ 15

/-! ## What the ports make of the selection and of the timebase (R30, R31, R33, R53, R54, R55) -/

/-- REF_SWITCH, item 15, is in both views of `t`. -/
def State.Switched (t : State) : Prop := t.cond.viewA.getLsbD 15 = true ∧ t.cond.viewB.getLsbD 15 = true

/-- The selection of `t` is that of `s`, and REF_SWITCH is not raised. -/
def State.SelectionKept (s t : State) : Prop :=
  t.sel.selection = s.sel.selection ∧
  (t.cond.viewA.getLsbD 15, t.cond.viewB.getLsbD 15) = (s.cond.viewA.getLsbD 15, s.cond.viewB.getLsbD 15)

/-- The timebase of `t` has no port to steer by any more: LOCKED is left (R31), or no acquisition waits
(R37). -/
def State.Unsteered (s t : State) : Prop :=
  (t.tb.timeSet = true →
    (s.tb.disc = .locked → t.tb.disc = (if t.tb.trimValid then .holdover else .free) ∧
      (t.tb.trimValid = true → t.tb.holdAge = 0) ∧ t.tb.stepWaiting = false) ∧
    (s.tb.disc ≠ .locked → t.tb.disc = s.tb.disc)) ∧
  (t.tb.timeSet = false → t.tb.acq = none)

/-- What `t` makes of port `p`'s leaving QUALIFIED, where no other port moved: in AUTO the selection goes to
the other port if that is QUALIFIED, with the entry of R30, and else to NONE (R54); in MANUAL it stays
(R55). -/
def State.LosesPort (s t : State) (p : Port) : Prop :=
  (s.sel.selection ≠ some p → s.SelectionKept t) ∧
  (s.sel.selection = some p → s.sel.mode = .manual → s.SelectionKept t ∧ s.Unsteered t) ∧
  (s.sel.selection = some p → s.sel.mode = .auto → t.Switched ∧
    ((s.port p.other).st = .qualified → t.sel.selection = some p.other ∧
      (t.tb.timeSet = true → t.tb.disc = .locked ∧ (t.tb.winCount, t.tb.winSum) = (0, 0) ∧
        (t.tb.stepWaiting = true ↔ s.params.slew < (s.port p.other).lastOffset.natAbs ∧
          s.key.nearTimeCode = false ∧ t.key.mode ≠ .timeCode)) ∧
      (t.tb.timeSet = false → t.tb.acq = some p.other)) ∧
    ((s.port p.other).st ≠ .qualified → t.sel.selection = none ∧ s.Unsteered t))

/-- What `t` makes of port `p`'s becoming QUALIFIED by a pulse of offset `o`, where no other port moved: in
AUTO with no selection it is selected (R54). A selected one is locked to, with the check of R33 on `o`, if
time is SET (R30, R55): an offset over SLEW is slewed in the second of length `length` and correction
`corr` near TIME_CODE, and else waits for a phase step. While time is UNSET acquisition waits on it
(R36). -/
def State.GainsPort (s t : State) (p : Port) (o length corr : Int) : Prop :=
  let chosen := s.sel.mode = .auto ∧ s.sel.selection = none
  let c := max (-(s.params.slew : Int)) (min (s.params.slew : Int) (-o))
  (chosen → t.sel.selection = some p ∧ t.Switched) ∧
  (¬chosen → s.SelectionKept t) ∧
  (t.sel.selection = some p →
    (t.tb.timeSet = false → t.tb.acq = some p) ∧
    (t.tb.timeSet = true → t.tb.disc = .locked ∧
      (chosen ∨ s.tb.disc ≠ .locked → (t.tb.winCount, t.tb.winSum) = (0, 0) ∧
        (o.natAbs ≤ s.params.slew →
          (t.tb.length, t.tb.corr, t.tb.stepWaiting) = (length, corr, false)) ∧
        (s.params.slew < o.natAbs → s.key.nearTimeCode = true →
          (t.tb.length, t.tb.corr, t.tb.slewing, t.tb.stepWaiting) =
            (length + c, corr + c, true, false)) ∧
        (s.params.slew < o.natAbs → s.key.nearTimeCode = false →
          (t.tb.length, t.tb.corr) = (length, corr) ∧
          (t.tb.stepWaiting = true ↔ t.key.mode ≠ .timeCode)))))

/-- The state on which the keyer's part of a counted edge acts: the timebase has made the edge, the pulses
that waited for it are corrected by and evaluated, and the levels are loaded (the order is log 6). -/
def State.edgeBegun (s : State) : State :=
  (((s.waitUntil s.tb.due).beginEdge .counted).pulsesAtEdge .counted).markBegun.loadLevels

/-! ## Invariants -/

/-- The active set is the set of conditions whose cause holds (R188). It is not kept up to date while
the part is held in power-on reset. -/
def State.ConditionsExact (s : State) : Prop := s.por = false → s.cond.active = s.activeNow

/-- Each latched view holds every active condition (R190, R191, R206). -/
def State.ViewsHoldActive (s : State) : Prop :=
  ∀ i, i < 13 → s.cond.active.getLsbD i = true →
    s.cond.viewA.getLsbD i = true ∧ s.cond.viewB.getLsbD i = true

/-- The bounds of a link's lists (R210). -/
def LinkState.Bounded (x : LinkState) : Prop :=
  x.outstanding.length ≤ 8 ∧ x.output.countP (·.atOnce) ≤ 4

/-- Every list keeps within the bound that the manual gives it (R65, R82, R112, R160, R166, R180,
R210), and every parameter within its range (R216). -/
structure State.Bounded (s : State) : Prop where
  linkA : s.linkA.Bounded
  linkB : s.linkB.Bounded
  entries : s.sched.entries.length ≤ 16
  retired : s.sched.retired.length ≤ 8
  text0 : s.comp.text0.length ≤ 32
  text1 : s.comp.text1.length ≤ 32
  history : s.key.history.length ≤ 4
  queue : s.bus.queue.length ≤ 4
  collection : ∀ c, s.mon.coll = some c →
    c.syms.length ≤ 62 ∧ c.excess ≤ 255 ∧ (0 < c.excess → c.syms.length = 62)
  octets : s.mon.octets.length ≤ 32
  hunt : s.mon.hunt.length ≤ 15
  rxText : s.mon.rxText.length ≤ 32
  params : ∀ id r, paramTable[id]? = some r → r.lo ≤ s.params.get id ∧ s.params.get id ≤ r.hi

/-- A port is DISABLED exactly while its enable is off, and its watch is then stopped (R43, R51). -/
def RefPort.Enabled (r : RefPort) : Prop :=
  (r.enable = false ↔ r.st = .disabled) ∧ (r.st = .disabled → r.watch = none)

/-- The discipline is LOCKED exactly while time is SET and the selection names a QUALIFIED port (R30,
R31). While time is UNSET it is FREE, and acquisition waits on that port (R35, R36); while it is SET no
acquisition waits. A phase step waits only in LOCKED, and never while the keyer is in TIME_CODE or has
a change to it pending (R33, R34). -/
structure State.Steered (s : State) : Prop where
  ref1 : s.ref1.Enabled
  ref2 : s.ref2.Enabled
  locked : s.tb.disc = .locked ↔ s.tb.timeSet = true ∧ s.steering.isSome = true
  unset : s.tb.timeSet = false → s.tb.disc = .free
  acquiring : s.tb.acq = if s.tb.timeSet then none else s.steering
  step : s.tb.stepWaiting = true → s.tb.disc = .locked ∧ s.key.nearTimeCode = false

/-- In MANUAL the stored choice is the selection (R55), in AUTO the selection names a QUALIFIED port or none
(R54), and no selection names a DISABLED port (R51). -/
structure State.Selected (s : State) : Prop where
  manual : s.sel.mode = .manual → s.sel.manual = s.sel.selection
  auto : s.sel.mode = .auto → ∀ p, s.sel.selection = some p → (s.port p).st = .qualified
  enabled : ∀ p, s.sel.selection = some p → (s.port p).st ≠ .disabled

/-- The second-0 edges of the sent history, oldest first, and of the current frame do not come before one
another, nor after the present (R129, R175). -/
structure State.FramesInOrder (s : State) : Prop where
  history : s.key.history.Pairwise fun f g => f.edgeAt ≤ g.edgeAt
  current : ∀ f, s.key.current = some f → f.edgeAt ≤ s.now ∧ ∀ g ∈ s.key.history, g.edgeAt ≤ f.edgeAt
  past : ∀ g ∈ s.key.history, g.edgeAt ≤ s.now

/-- A label of a message that is not discarded (R44). -/
def Label.InRange (x : Label) : Prop := x.day ≤ 36524 ∧ x.sec ≤ 86400

/-- The waiting label of a port is in range. -/
def RefPort.LabelsInRange (r : RefPort) : Prop := ∀ x, r.waiting = some x → x.InRange

/-- Broadcast time and what the timebase counts stay in the ranges of R22, R26, R31 and R32. -/
structure State.TimeInRange (s : State) : Prop where
  day : s.tb.day ≤ 36524
  sec : s.tb.sec ≤ 86400
  minLen : 59 ≤ s.tb.minLen ∧ s.tb.minLen ≤ 61
  handed : ∀ h, s.tb.handed = some h → 59 ≤ h.length ∧ h.length ≤ 61
  pendingStep : ∀ x, s.tb.pendingStep = some x → x.1 ≤ 36524 ∧ x.2 ≤ 86399
  labels : s.ref1.LabelsInRange ∧ s.ref2.LabelsInRange
  freeSec : s.tb.freeSec ≤ 59
  freeMin : s.tb.freeMin ≤ 1439
  trim : -5000 ≤ s.tb.trim ∧ s.tb.trim ≤ 5000
  k : s.tb.k ≤ 99
  winCount : s.tb.winCount ≤ 99
  holdAge : s.tb.holdAge ≤ 65535

/-- What the keyer holds beside its mode (R112, R122, R129). -/
structure Keyer.Ordered (k : Keyer) : Prop where
  pending : ∀ m, k.pendingMode = some m → m ≠ k.mode ∧ m ≠ .offAir ∧ k.offReq = none ∧ k.maint = none
  offReq : k.offReq.isSome = true → k.mode ≠ .offAir ∧ k.maint = none
  maint : ∀ m, k.maint = some m → k.mode = .offAir ∧ m.resume ≠ .offAir
  deferred : k.deferred = true → k.offReq.isSome = true
  current : k.current.isSome = true → k.mode = .timeCode
  history : k.history ≠ [] → k.mode = .timeCode

/-- The synthesizer runs while the keyer is on air (R115, R146), on settings that SET_SYNTH would
accept (R137, R138). -/
structure State.CarrierMade (s : State) : Prop where
  running : s.key.mode ≠ .offAir → s.synth.st ≠ .off
  settings : synthFault s.synth.n s.synth.k s.synth.p s.synth.b = none

/-- The change table is in the order of R65, no two of its entries break the bounds of R65, and every
zone index is 0..3 (R85). -/
structure Schedule.Ordered (t : Schedule) : Prop where
  order : t.entries.Pairwise fun x y => y.before x = false
  apart : t.entries.Pairwise fun x y => x.conflicts y = false
  zone : t.zone ≤ 3
  pendingZone : ∀ z, t.pendingZone = some z → z ≤ 3
  newZones : ∀ x ∈ t.entries, ∀ z, x.newZone = some z → z ≤ 3

/-! ## Frames and messages as a sender forms them -/

/-- The octets of a request on the line (R207, R209). -/
def Request.frame (q : Request) : List Octet := linkFrame (octetsBE 2 q.tag.toNat ++ q.code :: q.args)

/-- The octets of a time message for a label (R44): the check makes octets 1 to 7 sum to 0. -/
def timeMessage (valid : Bool) (x : Label) : List Octet :=
  let leap := match x.leap with
    | .none => 0
    | .insert => 1
    | .delete => 2
  let status := BitVec.ofNat 8 (2 * leap + valid.toNat)
  let body := status :: octetsBE 2 x.day ++ octetsBE 3 x.sec
  0x5A#8 :: body ++ [-(body.foldl (· + ·) 0#8)]

end Sys2Proof.Machine
end

