-- ==== Sys2Proof/Certificates/Slice0/Obligations.lean ====
section
/-! DEFINITION. The statements for the provers, in the terms of Safety.lean. A request statement takes
as hypothesis only that the executor takes the command up (`State.takesUp`), and concludes what
executing it answers and leaves: everything that the block (`State.Answers`) or the state it leaves
(`State.AnswersWith`) does not change is unchanged but for the response, the executor's turn and the
conditions brought up to date. -/

open Sys2Proof Sys2Proof.Machine

/-! ## The machine -/

/-- The command at the front of the queue is executed on the state with the queue's rest, and an empty
queue changes nothing (the idling is log 1). -/
def Obligations.StepRunsTheFrontCommand : Prop :=
  ∀ s : State,
    (∀ c rest, s.pending = c :: rest → step s = exec c { s with pending := rest }) ∧
    (s.pending = [] → step s = .next s)

/-- R220: POR_N at 0 silences every output, and while it is held no command but its rise changes
anything save the time and the levels of the input lines. -/
def Obligations.HeldPowerOnResetSilencesThePart : Prop :=
  (∀ (dt : Nat) (s : State), ∃ t, exec (.powerOnResetAssert dt) s = .next t ∧
    t = { s with now := s.now + dt, por := true } ∧
    t.carrierEnable = false ∧ t.amplitude = 0 ∧ t.carrOut = .low ∧ t.faultLine = false ∧
    ∀ l, t.alertLine l = false ∧ t.txLine l = none) ∧
  (∀ (c : Instr) (s : State), s.por = true → (∀ dt, c ≠ .powerOnReset dt) →
    ∃ t, exec c s = .next t ∧
      t = { s with now := t.now, txReady := t.txReady, monIn := t.monIn, freqFrom := t.freqFrom })

/-- R41, R61, R88, R110, R133, R149, R164, R186, R204, R220: the blocks after the rise of POR_N. That the
command acts from every state, POR_N held or not, is the model's choice (log 19), and so are the values
of the fields of the blocks that have no meaning after reset (log 4). -/
def Obligations.PowerOnResetStartsEveryBlock : Prop :=
  ∀ (dt : Nat) (s : State), ∃ t, exec (.powerOnReset dt) s = .next t ∧
    t.por = false ∧ t.txReady = s.txReady ∧ t.monIn = s.monIn ∧
    t.params = Params.reset ∧ t.ref1 = RefPort.reset ∧ t.ref2 = RefPort.reset ∧
    t.sel = Selector.reset ∧ t.synth = Synth.reset ∧ t.sched = Schedule.reset ∧
    t.comp = Composer.reset ∧ t.key = Keyer.reset ∧ t.bus = Bus.reset ∧
    t.linkA = LinkState.reset ∧ t.linkB = LinkState.reset ∧ t.exe = Executor.reset ∧
    t.mon = { Monitor.reset with det := if s.monIn then .stuck else .idle } ∧
    t.presence = 0 ∧
    (s.freqFrom ≤ s.now + dt →
      t.tb = Timebase.reset ∧ t.cond = Conditions.reset ∧ t.faultLine = false) ∧
    (s.now + dt < s.freqFrom →
      t.tb = { Timebase.reset with source := .standby } ∧
      t.cond.active = Conditions.reset.active ||| BitVec.twoPow 13 6 ∧
      t.cond.viewA = t.cond.active.setWidth 25 ∧ t.cond.viewB = t.cond.active.setWidth 25 ∧
      t.faultLine = true) ∧
    t.alertLine .a = true ∧ t.alertLine .b = true

/-- R41, R61, R88, R110, R133, R149, R164, R193, R195, R204, R216: some of the values that the spec gives
for reset. The active set, the views and FAULT_OUT are those of a part with FREQ_IN present, which
State.reset has by the model's choice (log 3). -/
def Obligations.ResetHoldsTheStatedValues : Prop :=
  let s := State.reset
  (s.tb.timeSet, s.tb.disc, s.tb.trim, s.tb.trimValid, s.tb.k, s.tb.minLen) =
    (false, .free, 0, false, 0, 60) ∧
  s.tb.due = 10000000 ∧
  (s.ref1.enable, s.ref1.st, s.ref1.watch, s.ref2.enable, s.ref2.st, s.ref2.watch) =
    (true, .absent, none, true, .absent, none) ∧
  (s.sel.mode, s.sel.selection, s.sel.manual) = (.auto, none, none) ∧
  (s.synth.n, s.synth.k, s.synth.p, s.synth.b, s.synth.st) = (228, 125, 0, 0, .off) ∧
  carrierMHz s.synth.n s.synth.k s.synth.p = 71250000 ∧
  (s.sched.entries, s.sched.nextNum, s.sched.version, s.sched.zone) = ([], 1, 0, 0) ∧
  (s.comp.octIdx, s.comp.low, s.comp.next) = (-1, false, none) ∧
  (s.key.mode, s.key.full, s.key.reduced, s.amplitude) = (.offAir, 1000, 150, 0) ∧
  (s.bus.first, s.bus.last, s.bus.pos, s.bus.queue, s.bus.contributing) = (1, 8, 1, [], 0) ∧
  (s.bus.txn.map fun t => (t.scan, t.address, t.register)) = some (true, 1, 0) ∧
  (∀ i, i < 13 → s.cond.active.getLsbD i = decide (i = 0 ∨ i = 3 ∨ i = 4)) ∧
  (∀ l i, i < 25 → (s.cond.view l).getLsbD i = decide (i = 0 ∨ i = 3 ∨ i = 4)) ∧
  (∀ l i, i < 25 → (s.cond.mask l).getLsbD i = decide (i = 23)) ∧
  (∀ i, i < 13 → s.cond.faultMask.getLsbD i = decide (6 ≤ i ∧ i ≤ 10)) ∧
  (s.alertLine .a, s.alertLine .b, s.faultLine) = (true, true, false) ∧
  (∀ id r, paramTable[id]? = some r → s.params.get id = r.default)

/-- R164, R186, R187, R205, R218, R219: RESTART_N_FALL with CARRY_OVER on keeps the carry-over context and
resets the rest, the monitor whole, whose detector stands by MON_IN even if it is off (log 23); with it off
it is a power-on reset in all it leaves. RESTART is answered OK with
CARRY_OVER, in two octets (log 7), and awaits a restart, made at AWAITED_RESTART, or at the end of the
sending of its response (log 12), as RESTART_N_FALL would make it. AWAITED_RESTART with none awaited
changes nothing by the model's choice (log 2). -/
def Obligations.RestartKeepsTheCarryOverContext : Prop :=
  (∀ (dt : Nat) (s : State), s.por = false →
    (s.params.carryOver = true → ∃ t, exec (.restartNFall dt) s = .next t ∧
      t.params = s.params ∧ t.tb = s.tb ∧ t.ref1 = s.ref1 ∧ t.ref2 = s.ref2 ∧ t.sel = s.sel ∧
      t.synth = s.synth ∧ t.sched = s.sched ∧ t.comp = s.comp ∧ t.key = s.key ∧
      t.linkA = LinkState.reset ∧ t.linkB = LinkState.reset ∧ t.exe = Executor.reset ∧
      (t.bus.first, t.bus.last, t.bus.pos) = (s.bus.first, s.bus.last, s.bus.first) ∧
      t.bus.queue = [] ∧ (∀ a, t.bus.record a = ScanRec.reset) ∧
      (t.bus.txn.map fun x => (x.scan, x.address, x.register, x.attempts)) =
        (if s.params.scanEnable then some (true, s.bus.first, 0, 1) else none) ∧
      t.mon = {
        det := if s.monIn then .stuck else .idle, lastSymbol := none, lastDelay := 0, delayAt := none
        coll := none, bad := 0, good := 0, frameLost := false, inject := false, lastFrame := none
        timer := if s.params.monitorEnable && s.key.mode = .timeCode then
          some (s.now + dt + 620000000) else none
        collecting := false, octets := [], heldHigh := none, rxText := [], rxCycles := 0
        an := .hunting, hunt := [], gen := BitVec.allOnes 15, correct := 0, miss := 0 } ∧
      (t.por, t.txReady, t.monIn, t.freqFrom, t.now) =
        (false, s.txReady, s.monIn, s.freqFrom, s.now + dt) ∧
      (t.cond.faultMask, t.cond.thresholds) = (s.cond.faultMask, s.cond.thresholds) ∧
      t.cond.live = Vector.replicate 12 0 ∧ t.cond.latched = Vector.replicate 12 0 ∧
      (t.cond.seq, t.cond.overSet) = (0, 0) ∧
      (∀ l, t.cond.mask l = alertMaskDefault ∧ t.cond.view l = t.cond.active.setWidth 25) ∧
      t.cond.active = t.activeNow) ∧
    (s.params.carryOver = false → exec (.restartNFall dt) s = exec (.powerOnReset dt) s)) ∧
  (∀ (l : Link) (tag : Tag) (s : State), s.takesUp (.restart l tag) →
    s.Answers (.restart l tag) .ok (encParam s.params.carryOver.toNat)
      (fun x => { x with exe := { x.exe with restartAwaited := true } })) ∧
  (∀ (dt : Nat) (s : State), s.por = false →
    (s.exe.restartAwaited = true →
      ∃ t, exec (.awaitedRestart dt) s = .next t ∧ exec (.restartNFall dt) s = .next t) ∧
    (s.exe.restartAwaited = false →
      exec (.awaitedRestart dt) s = .next { s with now := s.now + dt })) ∧
  (∀ (dt : Nat) (l : Link) (s : State) (r : Response) (rest : List Response),
    s.por = false → s.exe.restartAwaited = true → (s.link l).output = r :: rest →
    (r.code = 0x92 ∧ r.result = .ok ∧ r.atOnce = false) →
    exec (.responseSent l dt) s =
      exec (.restartNFall dt) (s.setLink l ((s.link l).sent r))) ∧
  (∀ (dt : Nat) (s t : State),
    s.por = false → exec (.restartNFall dt) s = .next t → t.exe.restartAwaited = false)

/-- R162, R206, R217, R218: LINK_BREAK acts on its own link, its relay entries' responses, and its view
and mask; the restart awaited on a response that it empties is made. -/
def Obligations.LinkBreakResetsItsLinkAlone : Prop :=
  ∀ (l : Link) (dt : Nat) (s : State), s.por = false →
    let t := { s.setLink l LinkState.reset with
      now := s.now + dt
      bus := { s.bus with
        queue := s.bus.queue.map fun x => if x.link = l then { x with wanted := false } else x }
      cond := (s.cond.setView l (s.cond.active.setWidth 25)).setMask l alertMaskDefault }
    ((s.exe.restartAwaited = false ∨
        ∀ r ∈ (s.link l).output, ¬(r.code = 0x92 ∧ r.result = .ok ∧ r.atOnce = false)) →
      exec (.linkBreak l dt) s = .next t) ∧
    ((s.exe.restartAwaited = true ∧
        ∃ r ∈ (s.link l).output, r.code = 0x92 ∧ r.result = .ok ∧ r.atOnce = false) →
      exec (.linkBreak l dt) s = exec (.restartNFall 0) t)

/-! ## The control links -/

/-- R207, R208, R210: the octets of a request frame, received in HUNT, hand exactly that request to the
outstanding list, whatever its TAG, CODE and arguments. The octets of one command come at its instant by
the model's choice (log 26); the 100,000 cycles are R208's 10 ms (log 15). -/
def Obligations.RequestFrameIsReceivedWhole : Prop :=
  ∀ (l : Link) (q : Request) (dt : Nat) (s : State),
    s.por = false → (s.link l).rx = .hunt → q.args.length ≤ 57 →
    ∃ s', exec (.linkFrameReceived l q.frame dt) s = .next (s'.arrive l q) ∧
      s' = { s with now := s.now + dt }.setLink l
        { s.link l with rx := .hunt, gapAt := s.now + dt + 100000 }

/-- R208: a frame whose check fails is discarded, and so is a frame in progress at a gap expiry, a
framing error or an invalid LENGTH octet: the parser is in HUNT, the link's counter goes up by one, and
nothing else changes. In HUNT a framing error changes nothing (R208), and neither does a gap expiry, which
cannot occur there (the model's choice, log 2). Octets of one command come at its instant (log 26). -/
def Obligations.DiscardedFrameIsCounted : Prop :=
  (∀ (l : Link) (body : List Octet) (check : BitVec 16) (dt : Nat) (s : State),
    s.por = false → (s.link l).rx = .hunt → 3 ≤ body.length → body.length ≤ 60 →
    check ≠ crc16 (octetsBE 1 body.length ++ body) →
    ∃ s', exec (.linkFrameReceived l
        (0xC3#8 :: octetsBE 1 body.length ++ body ++ octetsBE 2 check.toNat) dt) s =
          .next (s'.countDiscard l) ∧
      s' = { s with now := s.now + dt }.setLink l
        { s.link l with rx := .hunt, gapAt := s.now + dt + 100000 }) ∧
  (∀ (l : Link) (s : State), s.por = false → (s.link l).rx ≠ .hunt →
    exec (.linkGapExpiry l) s = .next
      (({ s with now := max s.now (s.link l).gapAt }.setLink l
        { s.link l with rx := .hunt }).countDiscard l)) ∧
  (∀ (l : Link) (dt : Nat) (s : State), s.por = false → (s.link l).rx ≠ .hunt →
    exec (.linkFramingError l dt) s = .next
      (({ s with now := s.now + dt }.setLink l { s.link l with rx := .hunt }).countDiscard l)) ∧
  (∀ (l : Link) (o : Octet) (dt : Nat) (s : State),
    s.por = false → (s.link l).rx = .length → (o.toNat < 3 ∨ 60 < o.toNat) →
    exec (.lengthOctetInvalid l o dt) s = .next
      (({ s with now := s.now + dt }.setLink l { s.link l with rx := .hunt }).countDiscard l)) ∧
  (∀ (l : Link) (dt : Nat) (s : State), s.por = false → (s.link l).rx = .hunt →
    exec (.linkGapExpiry l) s = .next s ∧
    exec (.linkFramingError l dt) s = .next { s with now := s.now + dt })

/-- R210, R211, R215: the decision on an arriving request, in the order of its steps; a fifth response
that would wait to be given at once is not given, and its frame is counted as discarded. The oldest
response leaves the output when its last octet has been sent, and its own entry leaves the list, a
relay's for a relay's response; one given at once has no entry. While a restart is awaited this holds of
every response but those on which it is made. That the one being sent counts among the four is the
model's choice (log 14), and so is that RESPONSE_SENT with an empty output changes nothing (log 2).
R215: the number of argument octets that each CODE of the catalogue has. R207, R209, R214: the octets of
a response on the TX line, with its check and its result code. -/
def Obligations.OutstandingListIsKept : Prop :=
  (∀ (s : State) (l : Link) (q : Request),
    let ls := s.link l
    let given := fun r : Result =>
      ({ tag := q.tag, code := q.code, result := r, data := [], atOnce := true,
         relayed := false } : Response)
    let atOnce := fun r : Result =>
      if ls.output.countP (·.atOnce) < 4 then
        s.setLink l { ls with output := ls.output ++ [given r] }
      else s.countDiscard l
    (8 ≤ ls.outstanding.length → s.arrive l q = atOnce .busy) ∧
    (ls.outstanding.length < 8 → q.code ∉ [
        0x01, 0x02, 0x03, 0x04, 0x05, 0x06, 0x10, 0x11, 0x20, 0x21, 0x22, 0x23, 0x30, 0x31, 0x32, 0x33,
        0x40, 0x41, 0x42, 0x43, 0x44, 0x50, 0x51, 0x52, 0x53, 0x54, 0x55, 0x60, 0x61, 0x62, 0x70, 0x71,
        0x80, 0x81, 0x82, 0x83, 0x90, 0x91, 0x92] → s.arrive l q = atOnce .unknown) ∧
    (ls.outstanding.length < 8 → argsFit q.code q.args = some false →
      s.arrive l q = atOnce .badLength) ∧
    (ls.outstanding.length < 8 → argsFit q.code q.args = some true →
      s.arrive l q = s.setLink l { ls with outstanding := ls.outstanding ++ [⟨q, .waiting, false⟩] })) ∧
  (∀ (l : Link) (dt : Nat) (s : State), s.por = false →
    ((s.link l).output = [] → exec (.responseSent l dt) s = .next { s with now := s.now + dt }) ∧
    (∀ r rest, (s.link l).output = r :: rest →
      (s.exe.restartAwaited = false ∨ ¬(r.code = 0x92 ∧ r.result = .ok ∧ r.atOnce = false)) →
      ∃ left, exec (.responseSent l dt) s =
          .next ({ s with now := s.now + dt }.setLink l
            { s.link l with output := rest, outstanding := left }) ∧
        (r.atOnce = true → left = (s.link l).outstanding) ∧
        (r.atOnce = false → ∀ before e after, (s.link l).outstanding = before ++ e :: after →
          (e.st = .answered ∧ e.req.tag = r.tag ∧ e.req.code = r.code ∧ e.relayed = r.relayed) →
          (∀ x ∈ before, ¬(x.st = .answered ∧ x.req.tag = r.tag ∧ x.req.code = r.code ∧
            x.relayed = r.relayed)) →
          left = before ++ after))) ∧
  (∀ (n : Nat) (codes : List Octet), (n, codes) ∈ ([
      (0, [0x01, 0x05, 0x10, 0x23, 0x31, 0x32, 0x33, 0x41, 0x71, 0x92]),
      (1, [0x04, 0x20, 0x22, 0x40, 0x42, 0x44, 0x51, 0x52, 0x53, 0x55, 0x61, 0x62, 0x70, 0x82, 0x91]),
      (2, [0x21, 0x54, 0x80]), (3, [0x83, 0x90]), (4, [0x02, 0x03, 0x43, 0x81]), (5, [0x06, 0x11]),
      (6, [0x30]), (8, [0x50])] : List (Nat × List Octet)) →
    ∀ code ∈ codes, ∀ args : List Octet, argsFit code args = some (decide (args.length = n))) ∧
  (∀ args : List Octet, (argsFit 0x60 args).isSome = true ∧
    (argsFit 0x60 args = some true ↔
      ∃ slot n text, args = slot :: n :: text ∧ args.length = 2 + n.toNat)) ∧
  (∀ (s : State) (l : Link), s.por = false →
    ((s.link l).output = [] → s.txLine l = none) ∧
    (∀ r rest, (s.link l).output = r :: rest →
      let code : Octet := match r.result with
        | .ok => 0
        | .pending => 1
        | .busy => 2
        | .unknown => 3
        | .badLength => 4
        | .badArgument => 5
        | .notReady => 6
        | .inUse => 7
        | .onAir => 8
        | .conflict => 9
        | .tooLate => 10
        | .full => 11
        | .notFound => 12
        | .noAnswer => 13
      let body := r.tag.extractLsb' 8 8 :: r.tag.extractLsb' 0 8 :: r.code :: code :: r.data
      let counted := BitVec.ofNat 8 body.length :: body
      let check := crc16 counted
      s.txLine l =
        some (0xC3 :: counted ++ [check.extractLsb' 8 8, check.extractLsb' 0 8]))) ∧
  (crc16 [] = 0xFFFF ∧ ∀ (xs : List Octet) (o : Octet), crc16 (xs ++ [o]) =
    (List.range 8).foldl (fun (r : BitVec 16) i =>
      if o.getLsbD (7 - i) ^^ r.getLsbD 15 then (r <<< 1) ^^^ 0x1021 else r <<< 1) (crc16 xs))

/-- R212: which link the executor serves next, which request, and what serving does to the turn pointer
and the consecutive count. -/
def Obligations.ExecutorAlternatesByWeight : Prop :=
  (∀ s : State, s.linkA.oldestWaiting = none → s.linkB.oldestWaiting = none → s.choice = none) ∧
  (∀ (s : State) l q, (s.link l).oldestWaiting = some q → (s.link l.other).oldestWaiting = none →
    s.choice = some (l, q)) ∧
  (∀ (s : State) q r, (s.link s.exe.turn).oldestWaiting = some q →
    (s.link s.exe.turn.other).oldestWaiting = some r →
    s.choice = if s.exe.count < s.params.weight s.exe.turn then some (s.exe.turn, q)
      else some (s.exe.turn.other, r)) ∧
  (∀ (x : Executor), x.serve x.turn = { x with count := x.count + 1 } ∧
    x.serve x.turn.other = { x with turn := x.turn.other, count := 1 })

/-- R210, R211, R212, R213, log 2: every request command that the executor takes up completes. Its entry
becomes ANSWERED with one response at the end of the link's output, or IN_RELAY with none, which only
MODULE_READ and MODULE_WRITE do; the other link is untouched. A request command that R212 does not
choose only arrives; one that arrives now is executed as if it had arrived before. -/
def Obligations.ChosenRequestIsExecuted : Prop :=
  (∀ (c : Instr) (s : State) (l : Link) (q : Request),
    c.asRequest = some (l, q) → s.takesUp c = true →
    ∃ t st, exec c s = .next t ∧ (t.exe.turn, t.exe.count) = ((s.exe.serve l).turn, (s.exe.serve l).count) ∧
      t.link l.other = s.link l.other ∧
      (t.link l).outstanding =
        updateFirst (fun e => e.st = .waiting)
          (fun e => { e with st := st, relayed := e.relayed || decide (st = .inRelay) })
          (s.link l).outstanding ∧
      ((st = .answered ∧ ∃ r data, (t.link l).output = (s.link l).output ++ [{
          tag := q.tag, code := q.code, result := r, data := data, atOnce := false,
          relayed := false }]) ∨
        (st = .inRelay ∧ (q.code = 0x80 ∨ q.code = 0x81) ∧ (t.link l).output = (s.link l).output))) ∧
  (∀ (c : Instr) (s : State) (l : Link) (q : Request), c.asRequest = some (l, q) → s.por = false →
    ((∃ e ∈ (s.link l).outstanding, e.st = .waiting ∧ e.req = q) → s.choice ≠ some (l, q) →
      exec c s = .next s) ∧
    ((∀ e ∈ (s.link l).outstanding, ¬(e.st = .waiting ∧ e.req = q)) →
      (s.link l).outstanding.length < 8 → argsFit q.code q.args = some true →
      exec c s = exec c (s.setLink l
        { s.link l with outstanding := (s.link l).outstanding ++ [⟨q, .waiting, false⟩] })))

/-! ## The conditions block -/

/-- R188, R190, R191, R192, R196, R206: every step keeps the active set equal to the conditions whose
cause holds, and keeps each active condition in both latched views; the set is brought up to date once,
at the end of an event (log 17). -/
def Obligations.ActiveSetAndViewsAreKept : Prop :=
  (∀ s t : State, s.ConditionsExact → step s = .next t → t.ConditionsExact) ∧
  (∀ s t : State, s.ViewsHoldActive → step s = .next t → t.ViewsHoldActive)

/-- R191: READ_STATUS carries the sets and the lines as they stand, and replaces the view of its own
link by the active conditions. -/
def Obligations.ReadStatusReplacesItsView : Prop :=
  ∀ (l : Link) (tag : Tag) (s : State), s.takesUp (.readStatus l tag) →
    s.Answers (.readStatus l tag) .ok
      (encSet s.cond.active ++ encSet (s.cond.view l) ++ encSet (s.cond.mask l) ++
        encSet s.cond.faultMask ++ encFlag (s.alertLine l) ++ encFlag s.faultLine)
      (fun x => { x with cond := x.cond.setView l (x.cond.active.setWidth 25) })

/-- R193, R194, R195, R196: the masks are written, or refused if the set names an item over the highest;
the lines are asserted exactly while an unmasked item is in the view, or an active condition in the
fault mask. -/
def Obligations.MasksGovernTheLines : Prop :=
  (∀ (l : Link) (tag : Tag) (set : BitVec 32) (s : State), s.takesUp (.setAlertMask l tag set) →
    ((∃ i, 25 ≤ i ∧ set.getLsbD i = true) → s.Refuses (.setAlertMask l tag set) .badArgument) ∧
    ((∀ i, 25 ≤ i → set.getLsbD i = false) →
      s.Answers (.setAlertMask l tag set) .ok (encSet set)
        (fun x => { x with cond := x.cond.setMask l (set.setWidth 25) }))) ∧
  (∀ (l : Link) (tag : Tag) (set : BitVec 32) (s : State), s.takesUp (.setFaultMask l tag set) →
    ((∃ i, 13 ≤ i ∧ set.getLsbD i = true) → s.Refuses (.setFaultMask l tag set) .badArgument) ∧
    ((∀ i, 13 ≤ i → set.getLsbD i = false) →
      s.Answers (.setFaultMask l tag set) .ok (encSet set)
        (fun x => { x with cond := { x.cond with faultMask := set.setWidth 13 } }))) ∧
  (∀ (s : State) (l : Link), s.por = false →
    (s.alertLine l = true ↔
      ∃ i, (s.cond.view l).getLsbD i = true ∧ (s.cond.mask l).getLsbD i = false)) ∧
  (∀ s : State, s.por = false →
    (s.faultLine = true ↔ ∃ i, s.cond.active.getLsbD i = true ∧ s.cond.faultMask.getLsbD i = true))

/-- R198, R199, R200, R201: TICK_NOW latches every live counter and clears it, forms the over-threshold
set, moves the sequence number on, raises TICK, and THRESHOLD if the set is not empty. A second edge
that is a minute boundary makes a tick exactly if TICK_PERIOD divides the minute number; it latches each
counter with what the edge itself counted, which only BLANK_MINUTES, by the keyer, and the two
disqualification counters and SLEW_SECONDS, by the pulses that waited for the edge, ids 4 to 7, can be;
without a tick the same counts stand in the live values, so that none is lost. That such a count falls
before the tick, so that the live values are all 0 after it, is the model's order (log 6). -/
def Obligations.TickNowLatchesTheCounters : Prop :=
  (∀ (l : Link) (tag : Tag) (s : State),
  s.takesUp (.tickNow l tag) → ∃ (set : CounterSet) (seq : Nat),
    (∀ i : Fin 12, set.getLsbD i = decide (s.cond.thresholds[i] ≠ 0 ∧ s.cond.thresholds[i] ≤ s.cond.live[i])) ∧
    seq = (if s.cond.seq = 65535 then 0 else s.cond.seq + 1) % 65536 ∧
    s.Answers (.tickNow l tag) .ok (octetsBE 2 seq ++ encSet set) (fun x =>
      let items := if set = 0 then BitVec.twoPow 25 23 else BitVec.twoPow 25 22 ||| BitVec.twoPow 25 23
      { x with cond := { x.cond with
          latched := s.cond.live, live := Vector.replicate 12 0, overSet := set, seq := seq
          viewA := s.cond.viewA ||| items, viewB := s.cond.viewB ||| items } })) ∧
  (∀ s : State, s.por = false → s.tb.stepWaiting = false → ∃ t, exec .secondEdge s = .next t ∧
    let tick :=
      if t.tb.timeSet then secondOfMinute t.tb.sec = 0 ∧ minuteOfDay t.tb.sec % s.params.tickPeriod = 0
      else t.tb.freeSec = 0 ∧ t.tb.freeMin % s.params.tickPeriod = 0
    let blank := (if t.tb.timeSet then secondOfMinute t.tb.sec = 0 else t.tb.freeSec = 0) ∧
      t.key.mode = .timeCode ∧ t.key.current = none
    let counted := fun v : Vector Nat 12 =>
      (∀ i : Fin 12, i.val < 4 ∨ 7 < i.val → v[i] = s.cond.live[i]) ∧
      v[4] = (if blank then min 4294967295 (s.cond.live[4] + 1) else s.cond.live[4]) ∧
      (∀ i : Fin 12, i.val = 5 ∨ i.val = 6 ∨ i.val = 7 → v[i] = s.edgeBegun.cond.live[i] ∧
        (s.cond.live[i] ≤ 4294967295 → s.cond.live[i] ≤ v[i]) ∧
        (s.ref1.openPulses = [] → s.ref2.openPulses = [] → v[i] = s.cond.live[i]))
    (tick →
      t.cond.live = Vector.replicate 12 0 ∧ t.cond.seq = (s.cond.seq + 1) % 65536 ∧
      counted t.cond.latched ∧
      (∀ i : Fin 12, t.cond.overSet.getLsbD i =
        decide (s.cond.thresholds[i] ≠ 0 ∧ s.cond.thresholds[i] ≤ t.cond.latched[i])) ∧
      t.cond.viewA.getLsbD 23 = true ∧ t.cond.viewB.getLsbD 23 = true ∧
      (t.cond.overSet ≠ 0 → t.cond.viewA.getLsbD 22 = true ∧ t.cond.viewB.getLsbD 22 = true)) ∧
    (¬tick →
      (t.cond.latched, t.cond.seq, t.cond.overSet) = (s.cond.latched, s.cond.seq, s.cond.overSet) ∧
      counted t.cond.live ∧
      t.cond.viewA.getLsbD 23 = s.cond.viewA.getLsbD 23 ∧
      t.cond.viewB.getLsbD 23 = s.cond.viewB.getLsbD 23))

/-- R197, R202, R203: thresholds are written by id, the counters are read by part, and a live counter
saturates. -/
def Obligations.CountersAndThresholds : Prop :=
  (∀ (l : Link) (tag : Tag) (id : Octet) (value : BitVec 32) (s : State),
    s.takesUp (.setThreshold l tag id value) →
    (11 < id.toNat → s.Refuses (.setThreshold l tag id value) .badArgument) ∧
    (∀ i : Fin 12, id.toNat = i →
      s.Answers (.setThreshold l tag id value) .ok (id :: octetsBE 4 value.toNat)
        (fun x => { x with cond := { x.cond with
          thresholds := x.cond.thresholds.set i value.toNat } }))) ∧
  (∀ (l : Link) (tag : Tag) (part : Octet) (s : State), s.takesUp (.readCounters l tag part) →
    (part = 0 → s.Answers (.readCounters l tag part) .ok
      (s.cond.latched.toList.flatMap (octetsBE 4) ++ octetsBE 2 s.cond.seq ++ encSet s.cond.overSet ++
        octetsBE 2 s.params.tickPeriod) id) ∧
    (part = 1 → s.Answers (.readCounters l tag part) .ok
      (s.cond.live.toList.flatMap (octetsBE 4)) id) ∧
    (part = 2 → s.Answers (.readCounters l tag part) .ok
      (s.cond.thresholds.toList.flatMap (octetsBE 4)) id) ∧
    (2 < part.toNat → s.Refuses (.readCounters l tag part) .badArgument)) ∧
  (∀ (s : State) (c : Counter) (n : Nat), s.cond.live[c.id] ≤ 4294967295 →
    (s.count c n).cond.live[c.id] =
        (if s.cond.live[c.id] + n ≤ 4294967295 then s.cond.live[c.id] + n else 4294967295) ∧
      ∀ i : Fin 12, i ≠ c.id → (s.count c n).cond.live[i] = s.cond.live[i])

/-! ## The timebase -/

/-- R23, R24, R25, R39: what a counted edge does to broadcast time and to the free counts, from a
second whose edge is not held back; and what a second edge leaves alone. -/
def Obligations.SecondEdgeAdvancesTime : Prop :=
  ∀ s : State, s.por = false → s.tb.stepWaiting = false →
    ∃ t, exec .secondEdge s = .next t ∧
      (∀ d x, s.tb.pendingStep = some (d, x) →
        t.tb.timeSet = true ∧ (t.tb.day, t.tb.sec, t.tb.minLen) = (d, x, 60) ∧
        t.tb.pendingStep = none ∧ (t.tb.freeSec, t.tb.freeMin) = (s.tb.freeSec, s.tb.freeMin)) ∧
      (s.tb.pendingStep = none → s.tb.timeSet = true →
        t.tb.timeSet = true ∧ (t.tb.freeSec, t.tb.freeMin) = (s.tb.freeSec, s.tb.freeMin) ∧
        (secondOfMinute s.tb.sec + 1 < s.tb.minLen →
          (t.tb.day, t.tb.sec, t.tb.minLen) = (s.tb.day, s.tb.sec + 1, s.tb.minLen)) ∧
        (s.tb.minLen = secondOfMinute s.tb.sec + 1 →
          (minuteOfDay s.tb.sec < 1439 →
            (t.tb.day, t.tb.sec) = (s.tb.day, 60 * (minuteOfDay s.tb.sec + 1))) ∧
          (minuteOfDay s.tb.sec = 1439 → s.tb.day < 36524 →
            (t.tb.day, t.tb.sec) = (s.tb.day + 1, 0)) ∧
          (minuteOfDay s.tb.sec = 1439 → s.tb.day = 36524 → (t.tb.day, t.tb.sec) = (0, 0)) ∧
          t.tb.handed = none ∧
          t.tb.minLen = match s.tb.handed with
            | some h => if h.minute = t.tb.minute then h.length else 60
            | none => 60)) ∧
      (s.tb.pendingStep = none → s.tb.timeSet = false →
        t.tb.timeSet = false ∧
        t.tb.freeSec = (if s.tb.freeSec = 59 then 0 else s.tb.freeSec + 1) ∧
        t.tb.freeMin = (if s.tb.freeSec = 59 then (s.tb.freeMin + 1) % 1440 else s.tb.freeMin)) ∧
      t = { s with
        now := t.now, tb := t.tb, ref1 := t.ref1, ref2 := t.ref2, sel := t.sel, sched := t.sched
        comp := t.comp, key := t.key, mon := t.mon, cond := t.cond }

/-- R26, R27, R28, R29: the second that a counted edge begins has the length 10,000,000 + e(k) + c, and
k advances. c is 0 if no pulse of the selected port waited for the edge; the offset of one that did, of
the port that steers the timebase, is corrected in this second, limited to SLEW, and the second is then
a slewing second, counted. That the correction comes before the evaluation is log 8. Over one pass the
shares e(k) add up to T, and each is floor(T / 100) or that plus one, within 50 cycles for every trim in
range. -/
def Obligations.SecondLengthSpreadsTheTrim : Prop :=
  (∀ s : State, s.por = false → s.tb.stepWaiting = false →
    ∃ t, exec .secondEdge s = .next t ∧
      t.tb.edgeAt = max s.now (s.tb.edgeAt + s.tb.length.toNat) ∧ t.now = t.tb.edgeAt ∧
      t.tb.k = (s.tb.k + 1) % 100 ∧ t.tb.edgeMade = true ∧
      t.tb.length = 10000000 + trimShare t.tb.trim s.tb.k + t.tb.corr ∧
      (s.ref1.openPulses = [] → s.ref2.openPulses = [] → t.tb.corr = 0 ∧ t.tb.slewing = false) ∧
      (t.sel.selection = s.sel.selection →
        (∀ q, s.sel.selection = some q → (s.port q).openPulses = []) →
        t.tb.corr = 0 ∧ t.tb.slewing = false) ∧
      (t.ref1.openPulses, t.ref2.openPulses) = ([], []) ∧
      (∀ p u, s.tb.disc = .locked → s.sel.selection = some p → (s.port p).openPulses = [u] →
        (s.port p.other).openPulses = [] →
        let o : Int := (t.tb.edgeAt : Int) - (u.at_ : Int)
        let c : Int := max (-(s.params.slew : Int)) (min (s.params.slew : Int) (-o))
        (t.port p).lastOffset = o ∧ t.tb.corr = c ∧ (t.tb.slewing = true ↔ s.params.slew < o.natAbs) ∧
        (t.tb.lastCorr, t.tb.lastSlew) = (c, t.tb.slewing) ∧
        s.edgeBegun.cond.live[Counter.slewSeconds.id] = (if s.params.slew < o.natAbs then
          min 4294967295 (s.cond.live[Counter.slewSeconds.id] + 1)
          else s.cond.live[Counter.slewSeconds.id]))) ∧
  (∀ T : Int, ((List.range 100).map (trimShare T)).sum = T ∧
    (∀ k, k < 100 → trimShare T k = T / 100 ∨ trimShare T k = T / 100 + 1) ∧
    (∀ k, k < 100 → -5000 ≤ T → T ≤ 5000 → -50 ≤ trimShare T k ∧ trimShare T k ≤ 50))

/-- R32: the edge that ends a second begun and ended in LOCKED enters its correction into the window; a
slewing second empties it; the 100th entry moves the trim by the sum, within its bound. Which
second counts as begun in LOCKED after LOCKED was left is log 9. -/
def Obligations.LearningWindowMovesTheTrim : Prop :=
  ∀ s : State, s.por = false → s.tb.stepWaiting = false →
    s.tb.disc = .locked → s.tb.begunLocked = true →
    s.ref1.openPulses = [] → s.ref2.openPulses = [] → s.tb.timeSet = true → s.steering.isSome = true →
    ∃ t, exec .secondEdge s = .next t ∧
      (s.tb.slewing = true →
        (t.tb.winCount, t.tb.winSum, t.tb.trim, t.tb.trimValid) =
          (0, 0, s.tb.trim, s.tb.trimValid)) ∧
      (s.tb.slewing = false → s.tb.winCount < 99 →
        (t.tb.winCount, t.tb.winSum, t.tb.trim, t.tb.trimValid) =
          (s.tb.winCount + 1, s.tb.winSum + s.tb.corr, s.tb.trim, s.tb.trimValid)) ∧
      (s.tb.slewing = false → s.tb.winCount = 99 →
        (t.tb.winCount, t.tb.winSum, t.tb.trimValid) = (0, 0, true) ∧
        t.tb.trim = max (-5000) (min 5000 (s.tb.trim + s.tb.winSum + s.tb.corr)))

/-- R34: while a phase step waits the count does not end the second; 5,000,000 cycles past the computed
length the step is abandoned, and the edge is made as a count would have made it then. With no step
waiting the expiry cannot occur and changes nothing (the model's choice, log 2). -/
def Obligations.PhaseStepHoldsTheEdge : Prop :=
  ∀ s : State, s.por = false →
    (s.tb.stepWaiting = true →
      exec .secondEdge s = .next { s with now := max s.now s.tb.due } ∧
      ∃ t, exec .phaseStepHoldExpiry s = .next t ∧
        exec .secondEdge { s with
          now := max s.now (s.tb.due + 5000000), tb := { s.tb with stepWaiting := false } } = .next t) ∧
    (s.tb.stepWaiting = false → exec .phaseStepHoldExpiry s = .next s)

/-- R19, R20, R21, R145: FREQ_IN_ABSENT moves counting to the standby oscillator, FREQ_IN_RETURN back; each
move clears the trim and adjusts the discipline, and nothing else of the timebase changes; a running
synthesizer returns to ACQUIRING on its settings, with a new comparison period, no runs and no judgement,
and SYNTH_LOCK_CHANGE is raised if it was LOCKED. How long FREQ_IN is absent is an operand (log 3). That
the second in progress at a move in LOCKED does not enter the new window is log 9. -/
def Obligations.SourceChangeClearsTheTrim : Prop :=
  let moved := fun (source : Source) (s t : State) =>
    t.tb = (match s.tb.disc with
      | .locked => { s.tb with
          source := source, trim := 0, trimValid := false, winCount := 0, winSum := 0
          begunLocked := false }
      | .holdover => { s.tb with source := source, trim := 0, trimValid := false, disc := .free }
      | .free => { s.tb with source := source, trim := 0, trimValid := false }) ∧
    t.synth = (if s.synth.st = .off then s.synth else { s.synth with
      st := .acquiring, inRun := 0, outRun := 0, last := .none, periodAt := t.now }) ∧
    (s.synth.st = .locked → t.cond.viewA.getLsbD 16 = true ∧ t.cond.viewB.getLsbD 16 = true) ∧
    (s.synth.st ≠ .locked → t.cond.viewA.getLsbD 16 = s.cond.viewA.getLsbD 16 ∧
      t.cond.viewB.getLsbD 16 = s.cond.viewB.getLsbD 16) ∧
    (t.cond.active.getLsbD 1, t.cond.active.getLsbD 2, t.cond.active.getLsbD 7) =
      (false, decide (s.tb.disc ≠ .locked ∧ s.tb.timeSet = true), decide (s.synth.st ≠ .off))
  (∀ (n dt : Nat) (s : State), s.por = false → s.tb.source = .station →
    ∃ t, exec (.freqInAbsent n dt) s = .next t ∧ moved .standby s t ∧
      t.now = s.now + dt ∧ t.freqFrom = s.now + dt + n ∧ t.cond.active.getLsbD 6 = true ∧
      t = { s with
        now := t.now, freqFrom := t.freqFrom, tb := t.tb, synth := t.synth, cond := t.cond }) ∧
  (∀ (n dt : Nat) (s : State), s.por = false → s.tb.source = .standby →
    exec (.freqInAbsent n dt) s = .next { s with now := s.now + dt, freqFrom := s.now + dt + n }) ∧
  (∀ (s : State), s.por = false → s.tb.source = .standby →
    ∃ t, exec .freqInReturn s = .next t ∧ moved .station s t ∧
      t.presence = 0 ∧ t.now = max s.now (s.freqFrom + 100000000) ∧
      t.cond.active.getLsbD 6 = false ∧
      t = { s with now := t.now, tb := t.tb, synth := t.synth, cond := t.cond })

/-- R38: STEP_TIME is refused ON_AIR, then BAD_ARGUMENT, and otherwise answered OK and held as the
pending step, in place of any other; it changes nothing else, so that the keyer's check for TIME_CODE
sees time UNSET with a step pending. -/
def Obligations.StepTimeIsHeldForTheNextEdge : Prop :=
  ∀ (l : Link) (tag : Tag) (day : BitVec 16) (second : BitVec 24) (s : State),
  s.takesUp (.stepTime l tag day second) →
    let onAir := s.key.mode = .timeCode ∨ s.key.pendingMode = some .timeCode
    (onAir → s.Refuses (.stepTime l tag day second) .onAir) ∧
    (¬onAir → (36524 < day.toNat ∨ 86399 < second.toNat) →
      s.Refuses (.stepTime l tag day second) .badArgument) ∧
    (¬onAir → day.toNat ≤ 36524 → second.toNat ≤ 86399 →
      s.Answers (.stepTime l tag day second) .ok []
        (fun x => { x with tb := { x.tb with pendingStep := some (day.toNat, second.toNat) } })) ∧
    (∀ x : State, x.tb.timeSet = false → x.onAirChecks .timeCode = false)

/-- R30, R31, R33, R34, R35, R36, R37: every step keeps the discipline, the waiting acquisition and the
waiting phase step in agreement with the selection and the ports. -/
def Obligations.DisciplineFollowsTheSelection : Prop :=
  ∀ s t : State, s.Steered → step s = .next t → t.Steered

/-- R22, R24, R26, R27, R31, R44: every step keeps broadcast time and the timebase's counts in range;
time goes back to UNSET only at a power-on reset or a station restart without carry-over. -/
def Obligations.TimebaseStaysInRange : Prop :=
  (∀ s t : State, s.TimeInRange → step s = .next t → t.TimeInRange) ∧
  (∀ (c : Instr) (s t : State), exec c s = .next t → s.tb.timeSet = true → t.tb.timeSet = false →
    (∃ dt, c = .powerOnReset dt) ∨
    (s.params.carryOver = false ∧
      ((∃ dt, c = .restartNFall dt) ∨ (∃ dt, c = .awaitedRestart dt) ∨
        (∃ l dt, c = .linkBreak l dt) ∨ (∃ l dt, c = .responseSent l dt))))

/-! ## The reference ports -/

/-- R45, R46: what every pulse of an enabled port does to its label, its watch and the time of its last
pulse; the first pulse of an ABSENT port makes it a CANDIDATE; a DISABLED port takes none. -/
def Obligations.PulseTakesTheWaitingLabel : Prop :=
  ∀ (p : Port) (dt : Nat) (s : State), s.por = false →
    ((s.port p).st = .disabled → exec (.refPulse p dt) s = .next { s with now := s.now + dt }) ∧
    ((s.port p).st ≠ .disabled → ∃ t, exec (.refPulse p dt) s = .next t ∧
      (t.port p).waiting = none ∧ (t.port p).missed = 0 ∧ (t.port p).lastPulse = some (s.now + dt) ∧
      (t.port p).watch = some (s.now + dt + (10000000 + s.params.qualWindow)) ∧
      (t.port p).last = (match (s.port p).waiting with
        | some x => some x
        | none => (s.port p).last) ∧
      ((s.port p).st = .absent → (s.port p).lastPulse = none → (s.port p).openPulses = [] →
        (t.port p).st = .candidate ∧ (t.port p).goodRun = 0) ∧
      t = { s with
        now := t.now, tb := t.tb, ref1 := t.ref1, ref2 := t.ref2, sel := t.sel, sched := t.sched
        comp := t.comp, key := t.key, mon := t.mon, cond := t.cond })

/-- R28, R29: a pulse of the selected port, paired with the latest edge while LOCKED with no phase step
waiting, corrects the second in progress by its offset's opposite, limited to SLEW; a second first
limited by it counts as a slewing second. That the correction comes before the pulse's evaluation, and
that corrections add up, are logs 8 and 13. R28, R46, R47: a pulse that comes later, and makes no edge,
waits for the next edge with its interval and its label, and changes nothing but its port (what it
leaves there, PulseTakesTheWaitingLabel) and the conditions; so does one before the first edge (log 10).
-/
def Obligations.PulseCorrectsTheSecond : Prop :=
  (∀ (p : Port) (dt : Nat) (s : State), s.por = false → (s.port p).st ≠ .disabled →
    s.tb.disc = .locked → s.sel.selection = some p → s.tb.stepWaiting = false → s.tb.timeSet = true →
    s.tb.edgeMade = true → s.tb.edgeAt ≤ s.now + dt → s.now + dt ≤ s.tb.edgeAt + 5000000 →
    let early := s.now + dt - s.tb.edgeAt
    let c : Int := if early ≤ s.params.slew then early else s.params.slew
    ∃ t, exec (.refPulse p dt) s = .next t ∧
      t.tb.length = s.tb.length + c ∧ t.tb.corr = s.tb.corr + c ∧ t.tb.edgeAt = s.tb.edgeAt ∧
      (t.tb.slewing = true ↔ s.tb.slewing = true ∨ s.params.slew < early) ∧
      (t.port p).lastOffset = -(early : Int) ∧
      t.cond.live[Counter.slewSeconds.id] = (if s.params.slew < early ∧ s.tb.slewing = false then
        min 4294967295 (s.cond.live[Counter.slewSeconds.id] + 1)
        else s.cond.live[Counter.slewSeconds.id])) ∧
  (∀ (p : Port) (dt : Nat) (s : State), s.por = false → (s.port p).st ≠ .disabled →
    (s.tb.edgeMade = false ∨ s.tb.edgeAt + 5000000 < s.now + dt) →
    (s.tb.stepWaiting = false ∨ s.sel.selection ≠ some p) →
    ¬(s.tb.timeSet = false ∧ s.tb.acq = some p ∧
      ∃ x, (s.port p).waiting = some x ∧ x.sec ≤ 86399) →
    let r := s.port p
    ∃ t interval, exec (.refPulse p dt) s = .next t ∧
      interval = (match r.lastPulse with
        | none => .none
        | some last =>
          if 10000000 ≤ s.now + dt - last + s.params.qualWindow ∧
              s.now + dt - last ≤ 10000000 + s.params.qualWindow then .regular else .irregular) ∧
      (t.port p).openPulses =
        r.openPulses ++ [{ at_ := s.now + dt, interval := interval, label := r.waiting }] ∧
      (t.port p).st = (if r.st = .absent then .candidate else r.st) ∧
      (r.st ≠ .absent → ((t.port p).goodRun, (t.port p).irregRun, (t.port p).unlabRun) =
        (r.goodRun, r.irregRun, r.unlabRun)) ∧
      ((t.port p).lastOffset, (t.port p).edgeOffset) = (r.lastOffset, r.edgeOffset) ∧
      t.port p.other = s.port p.other ∧ t.cond.live = s.cond.live ∧
      t = { s with now := s.now + dt, ref1 := t.ref1, ref2 := t.ref2, cond := t.cond })

/-- R34, R36: a pulse that carries out time acquisition or a phase step becomes a second edge at once;
acquisition sets broadcast time from its label, unless a STEP_TIME is pending. R171: such an edge is the
latest at or before the start of a mark that opened at its instant, whose delay is 0. -/
def Obligations.PulseMakesAnEdge : Prop :=
  (∀ (p : Port) (dt : Nat) (s : State) (label : Label),
    s.por = false → (s.port p).st ≠ .disabled → s.tb.timeSet = false →
    s.tb.acq = some p → (s.port p).waiting = some label → label.sec ≤ 86399 →
    ∃ t, exec (.refPulse p dt) s = .next t ∧
      t.tb.timeSet = true ∧ t.tb.acq = none ∧ t.tb.minLen = 60 ∧ t.tb.edgeAt = s.now + dt ∧
      t.tb.k = (s.tb.k + 1) % 100 ∧ (t.tb.freeSec, t.tb.freeMin) = (s.tb.freeSec, s.tb.freeMin) ∧
      (t.tb.winCount, t.tb.winSum) = (0, 0) ∧ t.tb.corr = 0 ∧ (t.port p).lastOffset = 0 ∧
      t.tb.pendingStep = none ∧
      (t.tb.day, t.tb.sec) = (s.tb.pendingStep.getD (label.day, label.sec)) ∧
      t.mon.lastDelay = (if s.mon.delayAt = some (s.now + dt) then 0 else s.mon.lastDelay)) ∧
  (∀ (p : Port) (dt : Nat) (s : State),
    s.por = false → (s.port p).st ≠ .disabled → s.tb.timeSet = true →
    s.tb.stepWaiting = true → s.sel.selection = some p → s.tb.edgeAt + 5000000 < s.now + dt →
    s.tb.pendingStep = none → secondOfMinute s.tb.sec + 1 < s.tb.minLen →
    ∃ t, exec (.refPulse p dt) s = .next t ∧
      t.tb.edgeAt = s.now + dt ∧ t.tb.k = (s.tb.k + 1) % 100 ∧ t.tb.corr = 0 ∧
      (t.tb.day, t.tb.sec) = (s.tb.day, s.tb.sec + 1) ∧ (t.tb.winCount, t.tb.winSum) = (0, 0) ∧
      (t.port p).lastOffset = 0 ∧
      t.mon.lastDelay = (if s.mon.delayAt = some (s.now + dt) then 0 else s.mon.lastDelay))

/-- R44, R45: a time message for any label, valid or not, received with no message in progress and no
pulse during it, acts on the waiting label alone; a DISABLED port ignores it. A complete message whose
check fails, whose leap warning code is 3 or whose day or second is out of range is discarded, and so is a
late one, in the midst of which a pulse came. A gap or a framing error discards the message in progress and
nothing else, and an octet other than 0x5A begins none. The octets of one command come at its instant (log
26), 2 ms are counted as 20,000 cycles (log 15), and a gap expiry with no message in progress, which
cannot occur, changes nothing (log 2). -/
def Obligations.TimeMessageSetsTheLabel : Prop :=
  (∀ (p : Port) (valid : Bool) (x : Label) (dt : Nat) (s : State), s.por = false → x.InRange →
    (s.port p).rx = [] →
    ((s.port p).st ≠ .disabled → exec (.refMessage p (timeMessage valid x) dt) s =
      .next ({ s with now := s.now + dt }.setPort p { s.port p with
        waiting := if valid then some x else none
        rx := [], rxLate := false, rxGapAt := s.now + dt + 20000 })) ∧
    ((s.port p).st = .disabled →
      exec (.refMessage p (timeMessage valid x) dt) s = .next { s with now := s.now + dt })) ∧
  (∀ (p : Port) (o1 o2 o3 o4 o5 o6 o7 : Octet) (dt : Nat) (s : State), s.por = false →
    (s.port p).st ≠ .disabled → (s.port p).rx = [] →
    ((o1.toNat + o2.toNat + o3.toNat + o4.toNat + o5.toNat + o6.toNat + o7.toNat) % 256 ≠ 0 ∨
      (o1.getLsbD 1 = true ∧ o1.getLsbD 2 = true) ∨
      36524 < 256 * o2.toNat + o3.toNat ∨
      86400 < 65536 * o4.toNat + 256 * o5.toNat + o6.toNat) →
    exec (.refMessage p [0x5A, o1, o2, o3, o4, o5, o6, o7] dt) s =
      .next ({ s with now := s.now + dt }.setPort p { s.port p with
        rx := [], rxLate := false, rxGapAt := s.now + dt + 20000 })) ∧
  (∀ (p : Port) (octets : List Octet) (dt : Nat) (s : State), s.por = false →
    (s.port p).st ≠ .disabled → (s.port p).rx ≠ [] → (s.port p).rxLate = true →
    2 ≤ octets.length → (s.port p).rx.length + octets.length = 8 →
    exec (.refMessage p octets dt) s =
      .next ({ s with now := s.now + dt }.setPort p { s.port p with
        rx := [], rxLate := false, rxGapAt := s.now + dt + 20000 })) ∧
  (∀ (p : Port) (o : Octet) (dt : Nat) (s : State), s.por = false →
    ((s.port p).rx.length = 7 → (s.port p).st ≠ .disabled → (s.port p).rxLate = true →
      exec (.refMessage p [o] dt) s =
        .next ({ s with now := s.now + dt }.setPort p { s.port p with rx := [], rxLate := false })) ∧
    ((s.port p).rx = [] → o ≠ 0x5A →
      exec (.refMessage p [o] dt) s = .next { s with now := s.now + dt })) ∧
  (∀ (p : Port) (dt : Nat) (s : State), s.por = false → (s.port p).st ≠ .disabled →
    ∃ t, exec (.refPulse p dt) s = .next t ∧
      ((t.port p).rx, (t.port p).rxLate, (t.port p).rxGapAt) =
        ((s.port p).rx, decide ((s.port p).rx ≠ []), (s.port p).rxGapAt)) ∧
  (∀ (p : Port) (dt : Nat) (s : State), s.por = false →
    ((s.port p).rx ≠ [] → exec (.refMsgGapExpiry p) s =
      .next ({ s with now := max s.now (s.port p).rxGapAt }.setPort p
        { s.port p with rx := [], rxLate := false })) ∧
    ((s.port p).rx = [] → exec (.refMsgGapExpiry p) s = .next s) ∧
    exec (.refMsgFramingError p dt) s =
      .next ({ s with now := s.now + dt }.setPort p { s.port p with rx := [], rxLate := false }))

/-- R46, R50: the first expiry of the watch removes the waiting label and starts the watch again; the
second takes the port to ABSENT, and counts an exit from QUALIFIED. R30, R31, R53, R54, R55: in AUTO the
selection then goes to the other port if it is QUALIFIED, and else to NONE, and in MANUAL it stays. -/
def Obligations.PulseWatchLosesThePort : Prop :=
  ∀ (p : Port) (at_ : Nat) (s : State), s.por = false → (s.port p).watch = some at_ →
    ∃ t, exec (.pulseWatchExpiry p) s = .next t ∧ t.now = max s.now at_ ∧
      (t.port p).waiting = none ∧ t.port p.other = s.port p.other ∧
      ((s.port p).missed = 0 →
        (t.port p).missed = 1 ∧ (t.port p).watch = some (max s.now at_ + 10000000) ∧
        (t.port p).st = (s.port p).st) ∧
      ((s.port p).missed = 1 →
        (t.port p).missed = 2 ∧ (t.port p).watch = none ∧ (t.port p).st = .absent ∧
        (t.port p).lastPulse = none ∧
        ((t.port p).goodRun, (t.port p).irregRun, (t.port p).unlabRun) = (0, 0, 0) ∧
        t.cond.live[(refDisqualify p).id] = (if (s.port p).st = .qualified then
          min 4294967295 (s.cond.live[(refDisqualify p).id] + 1)
          else s.cond.live[(refDisqualify p).id]) ∧
        ((s.port p).st = .qualified → s.LosesPort t p ∧ t.sel.disagree = false)) ∧
      ((s.port p).missed = 0 ∨ (s.port p).st ≠ .qualified → t.sel = s.sel ∧ s.SelectionKept t) ∧
      t = { s with
        now := t.now, tb := t.tb, ref1 := t.ref1, ref2 := t.ref2, sel := t.sel, cond := t.cond }

/-- R50, R51, R53, R56, R57, R58: the answers of the three requests to the references, and the
selection, mode, stored choice and enable that each leaves; REF_SWITCH is raised exactly if the
selection changes. A port turned off drops its pulse still to be evaluated and its message in progress,
and clears all but its last offset; one that was QUALIFIED counts an exit and ends a disagreement. -/
def Obligations.ReferenceRequestsSelect : Prop :=
  let switched := fun s x : State =>
    (x.sel.selection = s.sel.selection → x.cond = s.cond) ∧
    (x.sel.selection ≠ s.sel.selection →
      x.cond.viewA.getLsbD 15 = true ∧ x.cond.viewB.getLsbD 15 = true)
  (∀ (l : Link) (tag : Tag) (choice : Octet) (s : State), s.takesUp (.selectReference l tag choice) →
    (2 < choice.toNat → s.Refuses (.selectReference l tag choice) .badArgument) ∧
    (∀ p, choice = (match p with | .p1 => 1 | .p2 => 2) →
      ((s.port p).st ≠ .qualified → s.Refuses (.selectReference l tag choice) .notReady) ∧
      ((s.port p).st = .qualified → ∃ x, s.AnswersWith (.selectReference l tag choice) .ok [] x ∧
        x.sel = { s.sel with selection := some p, manual := some p } ∧ switched s x ∧
        x = { s with tb := x.tb, sel := x.sel, cond := x.cond })) ∧
    (choice = 0 → ∃ x, s.AnswersWith (.selectReference l tag choice) .ok [] x ∧
      x.sel = { s.sel with selection := none, manual := none } ∧ switched s x ∧
      x = { s with tb := x.tb, sel := x.sel, cond := x.cond })) ∧
  (∀ (l : Link) (tag : Tag) (mode : Octet) (s : State), s.takesUp (.setSelectMode l tag mode) →
    (1 < mode.toNat → s.Refuses (.setSelectMode l tag mode) .badArgument) ∧
    (mode = (if s.sel.mode = .auto then 0 else 1) → s.Answers (.setSelectMode l tag mode) .ok [] id) ∧
    (mode = 1 → s.sel.mode = .auto → ∃ x y, s.AnswersWith (.setSelectMode l tag mode) .ok [] x ∧
      x.sel = { s.sel with mode := .manual, selection := y, manual := y } ∧ switched s x ∧
      x = { s with tb := x.tb, sel := x.sel, cond := x.cond } ∧
      y = (match s.sel.manual with
        | some p => if (s.port p).st = .qualified then some p else s.sel.selection
        | none => s.sel.selection)) ∧
    (mode = 0 → s.sel.mode = .manual → ∃ x y, s.AnswersWith (.setSelectMode l tag mode) .ok [] x ∧
      x.sel = { s.sel with mode := .auto, selection := y } ∧ switched s x ∧
      x = { s with tb := x.tb, sel := x.sel, cond := x.cond } ∧
      (∀ p, s.sel.selection = some p → (s.port p).st = .qualified → y = some p) ∧
      ((∀ p, s.sel.selection = some p → (s.port p).st ≠ .qualified) →
        y = if s.ref1.st = .qualified then some .p1
          else if s.ref2.st = .qualified then some .p2 else none))) ∧
  (∀ (l : Link) (tag : Tag) (port setting : Octet) (s : State),
    s.takesUp (.setRefEnable l tag port setting) →
    ((port = 0 ∨ 2 < port.toNat ∨ 1 < setting.toNat) →
      s.Refuses (.setRefEnable l tag port setting) .badArgument) ∧
    (∀ p, port = (match p with | .p1 => 1 | .p2 => 2) →
      (setting = 1 → (s.port p).enable = true → s.Answers (.setRefEnable l tag port setting) .ok [] id) ∧
      (setting = 1 → (s.port p).enable = false → s.Answers (.setRefEnable l tag port setting) .ok []
        (fun x => x.setPort p { x.port p with enable := true, st := .absent })) ∧
      (setting = 0 → s.sel.selection = some p →
        s.Refuses (.setRefEnable l tag port setting) .inUse) ∧
      (setting = 0 → s.sel.selection ≠ some p → (s.port p).enable = false →
        s.Answers (.setRefEnable l tag port setting) .ok [] id) ∧
      (setting = 0 → s.sel.selection ≠ some p → (s.port p).enable = true →
        ∃ x, s.AnswersWith (.setRefEnable l tag port setting) .ok [] x ∧
          x.port p = { s.port p with
            enable := false, st := .disabled, watch := none, waiting := none, last := none
            goodRun := 0, irregRun := 0, unlabRun := 0, missed := 0, lastPulse := none
            openPulses := [], edgeOffset := none, leapDis := false, rx := [], rxLate := false } ∧
          (s.Steered → x.tb = s.tb) ∧
          x.port p.other = s.port p.other ∧
          (x.sel.mode, x.sel.selection, x.sel.manual) =
            (s.sel.mode, s.sel.selection, s.sel.manual) ∧
          ((s.port p).st ≠ .qualified → x.sel = s.sel ∧ x.cond = s.cond) ∧
          ((s.port p).st = .qualified → x.sel.disagree = false ∧
            x.cond = (s.count (refDisqualify p) 1).cond) ∧
          x = { s with
            tb := x.tb, ref1 := x.ref1, ref2 := x.ref2, sel := x.sel, cond := x.cond })))

/-- R28, R30, R33, R36, R47, R48, R49, R50, R53, R54, R55, R58, R59: the evaluation of a pulse, at the
pulse where it is paired with the latest edge, and at the next SECOND_EDGE where it waited for that one.
A good second of a CANDIDATE adds to its run, any other evaluation ends it, and at QUAL_COUNT the port
becomes QUALIFIED, is selected in AUTO with no selection, and is locked to (State.GainsPort). A label
that differs from the broadcast time of the second begun by the pulse's edge takes a QUALIFIED port to
CANDIDATE at once with TIME_MISMATCH, and so do irregular and unlabelled runs that reach their limits;
the exit is counted and the selection follows (State.LosesPort); short of those the port stays QUALIFIED
and its offset is judged against the other's to the same edge. While time is UNSET no label is compared,
and a port that is selected is acquired on. An edge moves the selection once, by both ports as it leaves
them (log 8). The leap warning check, which the edge that begins second 50 makes
(CompositionProcessesTheSchedule), compares the warning of each QUALIFIED port with the schedule's leap
for the month. That a second pulse to the same edge is judged again is the model's choice (log 27), and
the corrections come before the evaluations by log 8. -/
def Obligations.PulseEvaluationMovesThePort : Prop :=
  (∀ (p : Port) (dt : Nat) (s : State), s.por = false → s.tb.edgeMade = true →
    s.tb.edgeAt ≤ s.now + dt → s.now + dt ≤ s.tb.edgeAt + 5000000 →
    ¬(s.tb.timeSet = false ∧ s.tb.acq = some p ∧
      ∃ x, (s.port p).waiting = some x ∧ x.sec ≤ 86399) →
    let r := s.port p
    let o : Int := -((s.now + dt - s.tb.edgeAt : Nat) : Int)
    let regular := fun last : Nat => 10000000 ≤ s.now + dt - last + s.params.qualWindow ∧
      s.now + dt - last ≤ 10000000 + s.params.qualWindow
    let right := s.tb.timeSet = true →
      ∀ x, r.waiting = some x → (x.day, x.sec) = (s.tb.day, s.tb.sec)
    let good := r.waiting.isSome = true ∧ right ∧ ∃ last, r.lastPulse = some last ∧ regular last
    let irregRun := match r.lastPulse with
      | none => r.irregRun
      | some last => if regular last then 0 else r.irregRun + 1
    let unlabRun := if r.waiting = none then r.unlabRun + 1 else 0
    let irregular := ∃ last, r.lastPulse = some last ∧ ¬regular last
    let lost := ¬right ∨ (irregular ∧ s.params.disqCount ≤ irregRun) ∨ 3 ≤ unlabRun
    let d := (o - (s.port p.other).edgeOffset.getD 0).natAbs
    (r.st = .candidate → ∃ t, exec (.refPulse p dt) s = .next t ∧ (t.port p).lastOffset = o ∧
      (t.tb.timeSet, t.tb.day, t.tb.sec) = (s.tb.timeSet, s.tb.day, s.tb.sec) ∧
      (¬good → (t.port p).st = .candidate ∧ (t.port p).goodRun = 0 ∧ t.sel = s.sel) ∧
      (good → (s.port p).goodRun + 1 < s.params.qualCount →
        (t.port p).st = .candidate ∧ (t.port p).goodRun = (s.port p).goodRun + 1 ∧ t.sel = s.sel) ∧
      (good → s.params.qualCount ≤ (s.port p).goodRun + 1 →
        (t.port p).st = .qualified ∧
        ((t.port p).goodRun, (t.port p).irregRun, (t.port p).unlabRun) = (0, 0, 0) ∧
        s.GainsPort t p o s.tb.length s.tb.corr)) ∧
    (r.st = .qualified → ∃ t, exec (.refPulse p dt) s = .next t ∧ (t.port p).lastOffset = o ∧
      (¬right → t.cond.viewA.getLsbD 13 = true ∧ t.cond.viewB.getLsbD 13 = true) ∧
      (right → (t.cond.viewA.getLsbD 13, t.cond.viewB.getLsbD 13) =
        (s.cond.viewA.getLsbD 13, s.cond.viewB.getLsbD 13)) ∧
      (lost → (t.port p).st = .candidate ∧ t.sel.disagree = false ∧
        ((t.port p).goodRun, (t.port p).irregRun, (t.port p).unlabRun) = (0, 0, 0) ∧
        t.cond.live[(refDisqualify p).id] =
          min 4294967295 (s.cond.live[(refDisqualify p).id] + 1) ∧
        s.LosesPort t p) ∧
      (¬lost → (t.port p).st = .qualified ∧
        ((t.port p).irregRun, (t.port p).unlabRun) = (irregRun, unlabRun) ∧
        t.cond.live[(refDisqualify p).id] = s.cond.live[(refDisqualify p).id] ∧
        s.SelectionKept t ∧
        ((s.port p.other).st = .qualified → (s.port p.other).edgeOffset.isSome = true →
          t.sel.diff = some d ∧ t.sel.disagree = decide (s.params.refAgree < d)) ∧
        ((s.port p.other).st ≠ .qualified ∨ (s.port p.other).edgeOffset = none →
          t.sel = s.sel)))) ∧
  (∀ (p : Port) (u : OpenPulse) (s : State), s.por = false → s.tb.stepWaiting = false →
    (s.port p).openPulses = [u] → ∃ t, exec .secondEdge s = .next t ∧
    let r := s.port p
    let o : Int := (t.tb.edgeAt : Int) - (u.at_ : Int)
    let right := t.tb.timeSet = true → ∀ x, u.label = some x → (x.day, x.sec) = (t.tb.day, t.tb.sec)
    let good := u.label.isSome = true ∧ right ∧ u.interval = .regular
    let irregRun := match u.interval with
      | .none => r.irregRun
      | .regular => 0
      | .irregular => r.irregRun + 1
    let unlabRun := if u.label = none then r.unlabRun + 1 else 0
    let lost := ¬right ∨ (u.interval = .irregular ∧ s.params.disqCount ≤ irregRun) ∨ 3 ≤ unlabRun
    let alone := (s.port p.other).openPulses = []
    let exits := s.edgeBegun.cond.live[(refDisqualify p).id]
    (t.port p).lastOffset = o ∧ (t.port p).openPulses = [] ∧
    (r.st ≠ .qualified → exits = s.cond.live[(refDisqualify p).id]) ∧
    (r.st = .candidate →
      (¬good → (t.port p).st = .candidate ∧ (t.port p).goodRun = 0 ∧ (alone → t.sel = s.sel)) ∧
      (good → r.goodRun + 1 < s.params.qualCount → (t.port p).st = .candidate ∧
        (t.port p).goodRun = r.goodRun + 1 ∧ (alone → t.sel = s.sel)) ∧
      (good → s.params.qualCount ≤ r.goodRun + 1 → (t.port p).st = .qualified ∧
        ((t.port p).goodRun, (t.port p).irregRun, (t.port p).unlabRun) = (0, 0, 0) ∧
        (alone → s.GainsPort t p o (10000000 + trimShare t.tb.trim s.tb.k) 0))) ∧
    (r.st = .qualified →
      (¬right → t.cond.viewA.getLsbD 13 = true ∧ t.cond.viewB.getLsbD 13 = true) ∧
      (lost → (t.port p).st = .candidate ∧
        ((t.port p).goodRun, (t.port p).irregRun, (t.port p).unlabRun) = (0, 0, 0) ∧
        exits = min 4294967295 (s.cond.live[(refDisqualify p).id] + 1) ∧ t.sel.disagree = false ∧
        (alone → s.LosesPort t p)) ∧
      (¬lost → (t.port p).st = .qualified ∧
        ((t.port p).irregRun, (t.port p).unlabRun) = (irregRun, unlabRun) ∧
        exits = s.cond.live[(refDisqualify p).id] ∧ (alone → t.sel = s.sel))) ∧
    (∀ v, (s.port p.other).openPulses = [v] →
      (t.port p).st = .qualified → (t.port p.other).st = .qualified →
      let d := ((u.at_ : Int) - (v.at_ : Int)).natAbs
      t.sel.diff = some d ∧ t.sel.disagree = decide (s.params.refAgree < d))) ∧
  (∀ s : State, s.por = false → s.tb.stepWaiting = false → ∃ t, exec .secondEdge s = .next t ∧
    let gains := fun p : Port => (s.port p).st ≠ .qualified ∧ (t.port p).st = .qualified
    (s.sel.mode = .manual → t.sel.selection = s.sel.selection) ∧
    (s.sel.mode = .auto → s.sel.selection = none →
      t.sel.selection = if gains .p1 then some .p1 else if gains .p2 then some .p2 else none) ∧
    (∀ p, s.sel.mode = .auto → s.sel.selection = some p → (s.port p).st = .qualified →
      t.sel.selection = if (t.port p).st = .qualified then some p
        else if (t.port p.other).st = .qualified then some p.other else none) ∧
    (t.sel.selection ≠ s.sel.selection → t.Switched) ∧
    (t.sel.selection = s.sel.selection → s.SelectionKept t)) ∧
  (∀ (s : State) (w : LeapCode),
    let month := fun x : Entry => x.kind ≠ .zoneChange ∧ x.eDay = lastOfMonth s.tb.day + 1
    ((w = .none ∧ ∀ x ∈ s.sched.entries, ¬month x) ∨
      (∃ before x after, s.sched.entries = before ++ x :: after ∧ month x ∧
        (∀ y ∈ before, ¬month y) ∧ w = if x.kind = .leapInsert then .insert else .delete)) →
    let off := fun p : Port =>
      (s.port p).st = .qualified ∧ ∃ x, (s.port p).last = some x ∧ x.leap ≠ w
    (∀ p, (s.port p).st = .qualified → (s.port p).last.isSome = true) →
    (∀ p, (s.leapCheck.port p).leapDis = true ↔ off p) ∧
    ((∃ p, off p ∧ (s.port p).leapDis = false) → s.leapCheck.cond.viewA.getLsbD 14 = true ∧
      s.leapCheck.cond.viewB.getLsbD 14 = true) ∧
    ((∀ p, off p → (s.port p).leapDis = true) → s.leapCheck.cond = s.cond))

/-! ## The synthesizer -/

/-- R138, R139, R141, R146: SET_SYNTH is accepted exactly in OFF with settings whose frequencies lie in
their limits; SYNTH_ON starts the loop from OFF; SYNTH_OFF stops it off air and is refused on air. -/
def Obligations.SynthRequestsAct : Prop :=
  (∀ (l : Link) (tag : Tag) (n k : BitVec 16) (p b : Octet) (s : State),
    s.takesUp (.setSynth l tag n k p b) →
    let c := Instr.setSynth l tag n k p b
    let n' := if n = 0 then 1 else n.toNat
    let k' := if k = 0 then 1 else k.toNat
    let f := 10000000 * n'
    (s.synth.st ≠ .off → s.Refuses c .inUse) ∧
    (s.synth.st = .off → (16383 < n' ∨ 1023 < k' ∨ 7 < p.toNat ∨ 3 < b.toNat) →
      s.Answers c .badArgument [0] id) ∧
    (s.synth.st = .off → n' ≤ 16383 → k' ≤ 1023 → p.toNat ≤ 7 → b = 3 →
      s.Answers c .badArgument [1] id) ∧
    (s.synth.st = .off → n' ≤ 16383 → k' ≤ 1023 → p.toNat ≤ 7 → b.toNat < 3 →
      let lo := if b = 0 then 16000000 else if b = 1 then 32000001 else 64000001
      let hi := if b = 0 then 32000000 else if b = 1 then 64000000 else 128000000
      let d := k' * (256 * 2 ^ p.toNat)
      ((f < lo * k' ∨ hi * k' < f) → s.Answers c .badArgument [2] id) ∧
      (lo * k' ≤ f → f ≤ hi * k' → (f < 30000 * d ∨ 150000 * d < f) →
        s.Answers c .badArgument [3] id) ∧
      (lo * k' ≤ f → f ≤ hi * k' → 30000 * d ≤ f → f ≤ 150000 * d →
        s.Answers c .ok
          (octetsBE 2 n' ++ octetsBE 2 k' ++ [p, b] ++ octetsBE 5 (10000000000 * n' / k') ++
            octetsBE 5 (10000000000 * n' / d))
          (fun x => { x with synth := { x.synth with n := n', k := k', p := p.toNat, b := b.toNat } })))) ∧
  (∀ (l : Link) (tag : Tag) (s : State), s.takesUp (.synthOn l tag) →
    (s.synth.st = .off → s.Answers (.synthOn l tag) .ok [] (fun x => { x with synth := { x.synth with
      st := .acquiring, inRun := 0, outRun := 0, last := .none, periodAt := x.now } })) ∧
    (s.synth.st ≠ .off → s.Answers (.synthOn l tag) .ok [] id)) ∧
  (∀ (l : Link) (tag : Tag) (s : State), s.takesUp (.synthOff l tag) →
    (s.synth.st = .off → s.Answers (.synthOff l tag) .ok [] id) ∧
    (s.synth.st ≠ .off → s.key.mode ≠ .offAir → s.Refuses (.synthOff l tag) .onAir) ∧
    (s.synth.st ≠ .off → s.key.mode = .offAir → ∃ x, s.AnswersWith (.synthOff l tag) .ok [] x ∧
      x.synth = { s.synth with st := .off, inRun := 0, outRun := 0, last := .none } ∧
      x.carrOut = .low ∧
      (s.synth.st = .locked → x.cond.viewA.getLsbD 16 = true ∧ x.cond.viewB.getLsbD 16 = true) ∧
      (s.synth.st = .acquiring → x.cond = s.cond) ∧
      x = { s with synth := x.synth, cond := x.cond }))

/-- R142, R143, R144: a comparison period ends with its judgement, which acts on the runs and moves the
synthesizer to LOCKED at the 256th within and back at the 4th outside. The phase difference is an operand
by the model's choice (log 22), and in OFF, where the command cannot occur, it changes nothing (log 2). -/
def Obligations.ComparisonPeriodIsJudged : Prop :=
  ∀ (num den : Nat) (s : State), s.por = false →
    let within := decide (16 * num ≤ den)
    (s.synth.st = .off → exec (.comparisonPeriodEnd num den) s = .next s) ∧
    (s.synth.st ≠ .off → ∃ t, exec (.comparisonPeriodEnd num den) s = .next t ∧
      t.now = max s.now (s.synth.periodAt + s.synth.k) ∧ t.synth.periodAt = t.now ∧
      t.synth.last = (if within then .within else .outside) ∧
      (t.synth.n, t.synth.k, t.synth.p, t.synth.b) = (s.synth.n, s.synth.k, s.synth.p, s.synth.b) ∧
      (s.synth.st = .acquiring → within = true → s.synth.inRun < 255 →
        t.synth.st = .acquiring ∧ t.synth.inRun = s.synth.inRun + 1) ∧
      (s.synth.st = .acquiring → within = true → 255 ≤ s.synth.inRun →
        t.synth.st = .locked ∧ (t.synth.inRun, t.synth.outRun) = (0, 0) ∧
        t.cond.viewA.getLsbD 16 = true ∧ t.cond.viewB.getLsbD 16 = true ∧
        t.cond.active.getLsbD 7 = false) ∧
      (s.synth.st = .acquiring → within = false → t.synth.st = .acquiring ∧ t.synth.inRun = 0) ∧
      (s.synth.st = .locked → within = true → t.synth.st = .locked ∧ t.synth.outRun = 0) ∧
      (s.synth.st = .locked → within = false → s.synth.outRun < 3 →
        t.synth.st = .locked ∧ t.synth.outRun = s.synth.outRun + 1) ∧
      (s.synth.st = .locked → within = false → 3 ≤ s.synth.outRun →
        t.synth.st = .acquiring ∧ (t.synth.inRun, t.synth.outRun) = (0, 0) ∧
        t.cond.viewA.getLsbD 16 = true ∧ t.cond.viewB.getLsbD 16 = true ∧
        t.cond.active.getLsbD 7 = true) ∧
      t = { s with now := t.now, synth := t.synth, cond := t.cond })

/-- R115, R137, R138, R139, R146: every step keeps the synthesizer running while the keyer is on air,
and its settings within their limits. -/
def Obligations.CarrierIsMadeWhileOnAir : Prop :=
  ∀ s t : State, s.CarrierMade → step s = .next t → t.CarrierMade

/-! ## The keyer -/

/-- R116, R117, R120: SET_MODE in each mode of the keyer. -/
def Obligations.SetModeIsCheckedAndPending : Prop :=
  ∀ (l : Link) (tag : Tag) (o : Octet) (s : State), s.takesUp (.setMode l tag o) →
    let c := Instr.setMode l tag o
    (3 < o.toNat → s.Refuses c .badArgument) ∧
    (o = 0 → s.key.mode = .offAir → s.Answers c .ok []
      (fun x => { x with key := { x.key with pendingMode := none, maint := none } })) ∧
    (o = 0 → s.key.mode ≠ .offAir → s.Answers c .pending [] (fun x => { x with key := { x.key with
      pendingMode := none, offReq := some { until_ := none, deferred := false } } })) ∧
    (∀ m, o = (match m with | .offAir => 0 | .carrierOnly => 1 | .timeCode => 2 | .testPattern => 3) →
      m ≠ .offAir →
      (s.key.mode = m → s.Answers c .ok [] (fun x => { x with key := { x.key with
        pendingMode := none, offReq := none, deferred := false } })) ∧
      (s.key.mode ≠ m →
        ((s.key.mode = .offAir ∧ ¬(s.synth.st = .locked ∧ s.transmitterReady = true)) ∨
          (m = .timeCode ∧ s.tb.timeSet = false)) → s.Refuses c .notReady) ∧
      (s.key.mode ≠ m →
        (s.key.mode = .offAir → s.synth.st = .locked ∧ s.transmitterReady = true) →
        (m = .timeCode → s.tb.timeSet = true) →
        s.Answers c .pending [] (fun x => { x with
          key := { x.key with pendingMode := some m, maint := none, offReq := none, deferred := false }
          tb := { x.tb with stepWaiting := x.tb.stepWaiting && decide (m ≠ .timeCode) } })))

/-- R18, R34, R123, R126, R130, R131, R184: SET_HOLD writes the flag; KILL_CARRIER cuts the carrier at
once and removes everything that was pending, and changes no block but the keyer, the monitor and the
conditions. Every change of mode raises MODE_CHANGE; an entry to TEST_PATTERN seeds the generator with 1
in every stage and any other change keeps it, leaving TIME_CODE empties the sent history, and entering
it abandons a waiting phase step. What it does to the monitor: leaving TIME_CODE clears the assembler,
the runs and the notice assembly, entering it starts the frame timer, leaving or entering TEST_PATTERN
empties the analyzer's hunting, an open mark becomes stale, and everything else is kept. That the
analyzer's correct and miss runs and its generator are among what is kept is log 21. -/
def Obligations.KillCarrierCutsAtOnce : Prop :=
  (∀ (l : Link) (tag : Tag) (o : Octet) (s : State), s.takesUp (.setHold l tag o) →
    (1 < o.toNat → s.Refuses (.setHold l tag o) .badArgument) ∧
    (o.toNat ≤ 1 → s.Answers (.setHold l tag o) .ok []
      (fun x => { x with key := { x.key with hold := o = 1 } }))) ∧
  (∀ (l : Link) (tag : Tag) (s : State),
    s.takesUp (.killCarrier l tag) → ∃ x, s.AnswersWith (.killCarrier l tag) .ok [] x ∧
    x.carrierEnable = false ∧ x.amplitude = 0 ∧
    x.key = { s.key with
      mode := .offAir, pendingMode := none, offReq := none, maint := none, deferred := false
      current := none, mark := [], history := if s.key.mode = .timeCode then [] else s.key.history } ∧
    (s.key.mode ≠ .offAir → x.cond.viewA.getLsbD 17 = true ∧ x.cond.viewB.getLsbD 17 = true ∧
      x.mon = (s.changeMode .offAir).mon) ∧
    (s.key.mode = .offAir → x.cond = s.cond ∧ x.mon = s.mon) ∧
    x = { s with key := x.key, mon := x.mon, cond := x.cond }) ∧
  (∀ (s : State) (m : Mode), s.key.mode ≠ m →
    let t := s.changeMode m
    t.key = { s.key with
      mode := m, current := if s.key.mode = .timeCode then none else s.key.current
      history := if s.key.mode = .timeCode then [] else s.key.history
      gen := if m = .testPattern then BitVec.allOnes 15 else s.key.gen } ∧
    t.cond.viewA.getLsbD 17 = true ∧ t.cond.viewB.getLsbD 17 = true ∧
    t = { s with
      tb := { s.tb with stepWaiting := s.tb.stepWaiting && decide (m ≠ .timeCode) }
      key := t.key, mon := t.mon, cond := t.cond } ∧
    t.mon.det = (match s.mon.det with
      | .mark k => .mark { k with stale := true }
      | .idle => .idle
      | .stuck => .stuck) ∧
    (s.key.mode = .timeCode →
      (t.mon.coll, t.mon.timer, t.mon.bad, t.mon.good, t.mon.frameLost, t.mon.inject) =
        (none, none, 0, 0, false, false) ∧
      (t.mon.collecting, t.mon.octets, t.mon.heldHigh) = (false, [], none)) ∧
    (s.key.mode ≠ .timeCode →
      (t.mon.coll, t.mon.bad, t.mon.good, t.mon.frameLost, t.mon.inject) =
        (s.mon.coll, s.mon.bad, s.mon.good, s.mon.frameLost, s.mon.inject) ∧
      (t.mon.collecting, t.mon.octets, t.mon.heldHigh) =
        (s.mon.collecting, s.mon.octets, s.mon.heldHigh) ∧
      t.mon.timer = if m = .timeCode ∧ s.params.monitorEnable = true then some (s.now + 620000000)
        else s.mon.timer) ∧
    (t.mon.an, t.mon.hunt) = (if s.key.mode = .testPattern ∨ m = .testPattern then (.hunting, [])
      else (s.mon.an, s.mon.hunt)) ∧
    (t.mon.lastSymbol, t.mon.lastDelay, t.mon.lastFrame, t.mon.rxText, t.mon.rxCycles) =
      (s.mon.lastSymbol, s.mon.lastDelay, s.mon.lastFrame, s.mon.rxText, s.mon.rxCycles) ∧
    (t.mon.gen, t.mon.correct, t.mon.miss) = (s.mon.gen, s.mon.correct, s.mon.miss))

/-- R121: the checks of MAINTENANCE in their order, and what it leaves on air and off air. -/
def Obligations.MaintenanceIsCheckedInOrder : Prop :=
  ∀ (l : Link) (tag : Tag) (d m : BitVec 16) (s : State), s.takesUp (.maintenance l tag d m) →
    let c := Instr.maintenance l tag d m
    let e := d.toNat * 1440 + m.toNat
    let now := s.tb.day * 1440 + minuteOfDay s.tb.sec
    ((36524 < d.toNat ∨ 1439 < m.toNat) → s.Refuses c .badArgument) ∧
    (d.toNat ≤ 36524 → m.toNat ≤ 1439 → s.tb.timeSet = false → s.Refuses c .notReady) ∧
    (d.toNat ≤ 36524 → m.toNat ≤ 1439 → s.tb.timeSet = true →
      ((e ≤ now ∨ now + 10080 < e) → s.Refuses c .badArgument) ∧
      (now < e → e ≤ now + 10080 →
        (s.key.mode = .offAir → s.key.maint = none → s.Refuses c .notReady) ∧
        (s.key.mode ≠ .offAir → s.Answers c .pending [] (fun x => { x with key := { x.key with
          pendingMode := none
          offReq := some { until_ := some (d.toNat, m.toNat), deferred := false } } })) ∧
        (∀ r, s.key.mode = .offAir → s.key.maint = some r → s.Answers c .ok []
          (fun x => { x with key := { x.key with
            maint := some { r with endDay := d.toNat, endMinute := m.toNat } } }))))

/-- R4, R5, R114: the end of a mark interval begins the next one; a change of TX_READY is seen at once in
transmitter ready and in TX_NOT_READY. With no mark in progress the end of an interval cannot occur and
changes nothing (the model's choice, log 2). -/
def Obligations.LineEventsOfTheKeyer : Prop :=
  (∀ (s : State), s.por = false → ∀ i rest, s.key.mark = i :: rest →
    exec .markIntervalEnd s =
      .next { s with now := max s.now i.endsAt, key := { s.key with mark := rest } }) ∧
  (∀ (s : State), s.key.mark = [] → exec .markIntervalEnd s = .next s) ∧
  (∀ (level : Bool) (dt : Nat) (s : State),
    s.por = false → ∃ t, exec (.txReadyChange level dt) s = .next t ∧
    t = { s with now := s.now + dt, txReady := level, cond := t.cond } ∧
    (t.transmitterReady = true ↔ level = true ∧ s.params.minModules ≤ s.bus.contributing) ∧
    (t.cond.active.getLsbD 8 = true ↔ s.key.mode ≠ .offAir ∧ t.transmitterReady = false))

/-- R102, R118, R122, R124, R125, R127, R128, R129, R130, R131: which of the pending mode, the waiting
off-air request and the maintenance record the keyer's part of a minute boundary acts on, and what it
makes of it. A mode that changes changes the monitor as State.changeMode does (R184,
KillCarrierCutsAtOnce), and nothing else does; an entry to TEST_PATTERN seeds the generator, and nothing
else changes it here. While time is UNSET no end is reached (log 18). Whatever was held, a keyer that is
then in TIME_CODE, be it that it enters it here, takes the record of this minute, or keys a blank minute
where the slot is empty or holds the record of another. R3, R14, R18, R127: the second edge that is a
minute boundary makes this part on the state that the timebase and the references have left, with the
levels loaded, and the minute's first second takes the mark of the frame's symbol 0, of the generator's
bit, or none. That the evaluations of pulses come before and the tick and the mark after it is log 6. -/
def Obligations.BoundaryActsOnWhatIsHeld : Prop :=
  (∀ s : State, s.key.Ordered →
    let t := s.keyerBoundary
    let raised := fun i : Nat => t.cond.viewA.getLsbD i = true ∧ t.cond.viewB.getLsbD i = true
    let forNow := fun r : FrameRecord =>
      s.tb.timeSet = true ∧ r.day = s.tb.day ∧ r.minute = minuteOfDay s.tb.sec
    let noBlank := t.cond.live = s.cond.live ∧
      (t.cond.viewA.getLsbD 20, t.cond.viewB.getLsbD 20) =
        (s.cond.viewA.getLsbD 20, s.cond.viewB.getLsbD 20)
    t.key.windowReport = false ∧ t.comp.next = none ∧
    t = { s with tb := t.tb, comp := t.comp, key := t.key, mon := t.mon, cond := t.cond } ∧
    t.key = { s.key with
      mode := t.key.mode, pendingMode := t.key.pendingMode, offReq := t.key.offReq
      maint := t.key.maint, windowReport := false, deferred := t.key.deferred
      current := t.key.current, history := t.key.history
      gen := if t.key.mode = .testPattern ∧ s.key.mode ≠ .testPattern then BitVec.allOnes 15
        else s.key.gen } ∧
    t.mon = (if t.key.mode = s.key.mode then s.mon else (s.changeMode t.key.mode).mon) ∧
    (t.key.mode ≠ s.key.mode → raised 17) ∧
    (∀ m, s.key.pendingMode = some m → t.key.pendingMode = none ∧
      (s.onAirChecks m = true → t.key.mode = m ∧ raised 17) ∧
      (s.onAirChecks m = false → t.key.mode = s.key.mode ∧ raised 24)) ∧
    (∀ r, s.key.offReq = some r →
      ((s.key.hold = true ∨ ∃ x ∈ s.sched.entries, x.announcing = true) →
        t.key.mode = s.key.mode ∧ t.key.offReq = some { r with deferred := true } ∧
        t.key.deferred = true) ∧
      (s.key.hold = false → (∀ x ∈ s.sched.entries, x.announcing = false) →
        t.key.mode = .offAir ∧ t.key.offReq = none ∧ t.key.deferred = false ∧
        t.key.maint = r.until_.map (fun e =>
          { endDay := e.1, endMinute := e.2, resume := s.key.mode, due := false }) ∧
        raised 17)) ∧
    (∀ m, s.key.maint = some m →
      let due := m.due = true ∨ s.key.windowReport = true ∨
        (s.tb.timeSet = true ∧ m.endDay * 1440 + m.endMinute ≤ s.tb.minute)
      (¬due → t.key.mode = .offAir ∧ t.key.maint = some m) ∧
      (due → s.onAirChecks m.resume = true → t.key.mode = m.resume ∧ t.key.maint = none) ∧
      (due → s.onAirChecks m.resume = false → t.key.mode = .offAir ∧
        t.key.maint = some { m with due := true } ∧ raised 24)) ∧
    (s.key.pendingMode = none → s.key.offReq = none → s.key.maint = none →
      t.key.mode = s.key.mode ∧
      (t.key.pendingMode, t.key.offReq, t.key.maint) = (none, none, none) ∧
      ((s.key.mode = .timeCode → ∃ r, s.comp.next = some r ∧ forNow r) → t.cond = s.cond)) ∧
    (t.key.mode = .timeCode →
      (∀ f, s.key.current = some f → t.key.history = keepLast 4 (s.key.history ++ [f])) ∧
      (s.key.current = none → t.key.history = s.key.history) ∧
      (∀ r, s.comp.next = some r → forNow r →
        t.key.current = some {
          record := r, edgeAt := s.now, edgeDay := s.tb.day, edgeSec := s.tb.sec } ∧
        t.comp = { s.comp.taken r with next := none } ∧ noBlank) ∧
      ((∀ r, s.comp.next = some r → ¬forNow r) →
        t.key.current = none ∧ t.comp = { s.comp with next := none } ∧ raised 20 ∧
        t.cond.live = (s.count .blankMinutes 1).cond.live ∧
        t.cond.live[Counter.blankMinutes.id] =
          min 4294967295 (s.cond.live[Counter.blankMinutes.id] + 1))) ∧
    (t.key.mode ≠ .timeCode → t.key.current = none ∧ t.key.history = [] ∧
      t.comp = { s.comp with next := none } ∧ noBlank)) ∧
  (∀ s : State, s.por = false → s.tb.stepWaiting = false →
    ∃ t, exec .secondEdge s = .next t ∧
      let x := s.edgeBegun
      x = { s with
        now := t.now, tb := x.tb, ref1 := x.ref1, ref2 := x.ref2, sel := x.sel, cond := x.cond
        mon := s.mon.atEdge ⟨t.now, t.tb.day, t.tb.sec⟩
        key := { s.key with
          full := s.params.fullLevel
          reduced := (s.params.fullLevel * s.params.depth + 50) / 100 } } ∧
      (x.tb.timeSet, x.tb.day, x.tb.sec, x.tb.freeSec) =
        (t.tb.timeSet, t.tb.day, t.tb.sec, t.tb.freeSec) ∧
      ((if t.tb.timeSet then secondOfMinute t.tb.sec = 0 else t.tb.freeSec = 0) →
        let y := x.keyerBoundary
        let first : Option Symbol := match y.key.mode with
          | .offAir => none
          | .carrierOnly => none
          | .timeCode => y.key.current.bind fun f => f.record.syms[0]?
          | .testPattern => some (if y.key.gen.getLsbD 14 then .one else .zero)
        t.key = { y.key with
          secIdx := 0
          mark := match first with
            | none => []
            | some m => markOf t.now m
          gen := if y.key.mode = .testPattern then genStep y.key.gen else y.key.gen } ∧
        (t.comp, t.mon, t.sched) = (y.comp, y.mon, s.sched) ∧
        (∀ i, y.cond.viewA.getLsbD i = true → t.cond.viewA.getLsbD i = true) ∧
        (∀ i, y.cond.viewB.getLsbD i = true → t.cond.viewB.getLsbD i = true)))

/-- R2, R3, R4, R6, R14, R18, R25: the second begun by a counted edge that is no minute boundary, of
broadcast time or of the free counts, takes the mark of its symbol, or none, and the levels of the
parameters; the intervals of each mark; the level the amplitude command stands at. -/
def Obligations.SecondBegunTakesItsMark : Prop :=
  (∀ s : State, s.por = false → s.tb.stepWaiting = false → s.tb.pendingStep = none →
    ((s.tb.timeSet = true ∧ secondOfMinute s.tb.sec + 1 < s.tb.minLen ∧
        secondOfMinute (s.tb.sec + 1) ≠ 0) ∨ (s.tb.timeSet = false ∧ s.tb.freeSec ≠ 59)) →
    ∃ t, exec .secondEdge s = .next t ∧ t.key.mode = s.key.mode ∧ t.key.current = s.key.current ∧
      t.key.history = s.key.history ∧ t.key.secIdx = s.key.secIdx + 1 ∧
      t.key.full = s.params.fullLevel ∧
      t.key.reduced = (s.params.fullLevel * s.params.depth + 50) / 100 ∧
      (s.key.mode = .offAir ∨ s.key.mode = .carrierOnly → t.key.mark = [] ∧ t.key.gen = s.key.gen) ∧
      (s.key.mode = .testPattern → t.key.gen = genStep s.key.gen ∧
        t.key.mark = markOf t.now (if s.key.gen.getLsbD 14 then .one else .zero)) ∧
      (s.key.mode = .timeCode → t.key.gen = s.key.gen ∧
        (s.key.current = none → t.key.mark = []) ∧
        (∀ f, s.key.current = some f →
          (f.record.syms.length ≤ s.key.secIdx + 1 → t.key.mark = []) ∧
          (∀ x, f.record.syms[s.key.secIdx + 1]? = some x → t.key.mark = markOf t.now x)))) ∧
  (∀ t : Nat, markOf t .zero = [⟨true, t + 1000000⟩] ∧ markOf t .one = [⟨true, t + 2000000⟩] ∧
    markOf t .half = [⟨true, t + 4000000⟩] ∧
    markOf t .minute = [⟨true, t + 1000000⟩, ⟨false, t + 2000000⟩, ⟨true, t + 3000000⟩]) ∧
  (∀ s : State, s.por = false →
    (s.key.mode = .offAir → s.amplitude = 0) ∧
    (s.key.mode ≠ .offAir →
      (s.key.mark = [] → s.amplitude = s.key.full) ∧
      (∀ i rest, s.key.mark = i :: rest →
        s.amplitude = if i.reduced then s.key.reduced else s.key.full)))

/-- R112, R122, R129, R130: every step keeps the pending mode, the off-air request and the maintenance
record apart, each in the mode it belongs to, and frames in TIME_CODE only. -/
def Obligations.KeyerStateStaysOrdered : Prop :=
  ∀ s t : State, s.key.Ordered → step s = .next t → t.key.Ordered

/-- R113, R115: the keyer leaves OFF_AIR only at a second edge, with the synthesizer LOCKED and the
transmitter ready, and enters TIME_CODE only while time is SET. -/
def Obligations.OnAirNeedsLockAndReadiness : Prop :=
  ∀ (c : Instr) (s t : State), exec c s = .next t → t.key.mode ≠ s.key.mode → t.key.mode ≠ .offAir →
    (c = .secondEdge ∨ c = .phaseStepHoldExpiry ∨ ∃ p dt, c = .refPulse p dt) ∧
    (s.key.mode = .offAir → s.synth.st = .locked ∧ s.transmitterReady = true) ∧
    (t.key.mode = .timeCode → t.tb.timeSet = true)

/-! ## The change schedule -/

/-- R66..R73: POST_CHANGE is checked in the order of its refusals, and otherwise inserts a PENDING entry
under the first number from the next entry number on that no entry holds; WITHDRAW_CHANGE removes a
PENDING entry and never an ANNOUNCING one. -/
def Obligations.ChangesArePostedAndWithdrawn : Prop :=
  (∀ (l : Link) (tag : Tag) (kind : Octet) (day minute : BitVec 16) (zone : Octet) (lead : BitVec 16)
    (s : State), s.takesUp (.postChange l tag kind day minute zone lead) →
    let c := Instr.postChange l tag kind day minute zone lead
    let e := if kind = 2 then day.toNat * 1440 + minute.toNat else (day.toNat + 1) * 1440
    let valid := kind.toNat ≤ 2 ∧ day.toNat ≤ 36524 ∧ minute.toNat ≤ 1439 ∧ s.tb.minute < e ∧
      if kind = 2 then zone.toNat ≤ 3 else isLastOfMonth day.toNat = true ∧ day.toNat ≠ 36524
    let lead' := if lead = 0 then 60 else if 1440 < lead.toNat then 1440 else lead.toNat
    let g := s.tb.minute + (if secondOfMinute s.tb.sec < 50 then 1 else 2)
    let after := fun n : Nat => if 255 ≤ n then 1 else n + 1
    let clash := fun y : Entry => if kind = 2
      then y.kind = .zoneChange ∧ (y.e = e ∨ (e < y.e + lead' ∧ y.e < e + y.lead))
      else y.kind ≠ .zoneChange ∧ y.e = e
    (s.tb.timeSet = false → s.Refuses c .notReady) ∧
    (s.tb.timeSet = true →
      (¬valid → s.Refuses c .badArgument) ∧
      (valid → e ≤ g → s.Refuses c .tooLate) ∧
      (valid → g < e →
        (∀ before y rest, s.sched.entries = before ++ y :: rest → clash y →
          (∀ z ∈ before, ¬clash z) → s.Answers c .conflict (octetsBE 1 y.number) id) ∧
        ((∀ y ∈ s.sched.entries, ¬clash y) → 16 ≤ s.sched.entries.length → s.Refuses c .full) ∧
        ((∀ y ∈ s.sched.entries, ¬clash y) → s.sched.entries.length < 16 →
          ∃ x y, s.AnswersWith c .ok
              (octetsBE 1 x.number ++ octetsBE 2 lead' ++ octetsBE 2 (min lead' (e - g)) ++
                encFlag (decide (e - g < lead'))) y ∧
            (∃ k, k < 17 ∧ x.number = after^[k] s.sched.nextNum ∧
              (∀ j, j < k → ∃ z ∈ s.sched.entries, z.number = after^[j] s.sched.nextNum)) ∧
            (∀ z ∈ s.sched.entries, z.number ≠ x.number) ∧ y.sched.nextNum = after x.number ∧
            (x.kind = .zoneChange ↔ kind = 2) ∧ (x.kind = .leapInsert ↔ kind = 0) ∧ x.e = e ∧
            x.newZone = (if kind = 2 then some zone.toNat else none) ∧ x.lead = lead' ∧ x.origin = l ∧
            (x.postedDay, x.postedSec) = (s.tb.day, s.tb.sec) ∧ x.announcing = false ∧
            x.altered = (if kind = 2 then none else some false) ∧
            (∃ before rest, s.sched.entries = before ++ rest ∧
              y.sched.entries = before ++ x :: rest ∧ (∀ z ∈ before, x.before z = false) ∧
              (∀ z, rest.head? = some z → x.before z = true)) ∧
            y.sched.version = (s.sched.version + 1) % 65536 ∧
            y.cond.viewA.getLsbD 18 = true ∧ y.cond.viewB.getLsbD 18 = true ∧
            y.sched = { s.sched with
              entries := y.sched.entries, nextNum := y.sched.nextNum, version := y.sched.version } ∧
            y = { s with sched := y.sched, cond := y.cond })))) ∧
  (∀ (l : Link) (tag : Tag) (number : Octet) (s : State), s.takesUp (.withdrawChange l tag number) →
    let c := Instr.withdrawChange l tag number
    (number = 0 → s.Refuses c .badArgument) ∧
    (number ≠ 0 → (∀ x ∈ s.sched.entries, x.number ≠ number.toNat) → s.Refuses c .notFound) ∧
    (number ≠ 0 → ∀ before x after, s.sched.entries = before ++ x :: after →
      x.number = number.toNat → (∀ y ∈ before, y.number ≠ number.toNat) →
      (x.announcing = true → s.Refuses c .onAir) ∧
      (x.announcing = false → (∀ y ∈ after, y.number ≠ number.toNat) →
        ∃ y, s.AnswersWith c .ok [] y ∧ y.sched.entries = before ++ after ∧
          y.sched.retired = keepLast 8 (s.sched.retired ++ [{
            number := x.number, kind := x.kind, eDay := x.eDay, eMinute := x.eMinute
            newZone := x.newZone, origin := x.origin, outcome := .withdrawn, withdrawnBy := some l
            atDay := s.tb.day, atSec := s.tb.sec }]) ∧
          y.sched.version = (s.sched.version + 1) % 65536 ∧
          y.cond.viewA.getLsbD 18 = true ∧ y.cond.viewB.getLsbD 18 = true ∧
          y.sched = { s.sched with
            entries := y.sched.entries, retired := y.sched.retired, version := y.sched.version } ∧
          y = { s with sched := y.sched, cond := y.cond })))

/-- R86, R87: SET_ZONE and SELECT_ZONE. -/
def Obligations.ZoneRequestsAct : Prop :=
  (∀ (l : Link) (tag : Tag) (index offset : Octet) (s : State),
    s.takesUp (.setZone l tag index offset) →
    let c := Instr.setZone l tag index offset
    let near := s.key.mode = .timeCode ∨ s.key.pendingMode = some .timeCode
    let inUse := (near ∧ (index.toNat = s.sched.zone ∨ s.sched.pendingZone = some index.toNat)) ∨
      ∃ x ∈ s.sched.entries, x.announcing = true ∧ x.newZone = some index.toNat
    let q : Int := if offset.toInt < -48 then -48 else if 56 < offset.toInt then 56 else offset.toInt
    (3 < index.toNat → s.Refuses c .badArgument) ∧
    (index.toNat ≤ 3 → inUse → s.Refuses c .inUse) ∧
    (∀ i : Fin 4, index.toNat = i → ¬inUse → ∃ x, s.AnswersWith c .ok (signedBE 1 q) x ∧
      x.sched = { s.sched with offsets := s.sched.offsets.set i q, version := x.sched.version } ∧
      (s.sched.offsets[i] = q → x = s) ∧
      (s.sched.offsets[i] ≠ q → x.sched.version = (s.sched.version + 1) % 65536 ∧
        x.cond.viewA.getLsbD 18 = true ∧ x.cond.viewB.getLsbD 18 = true) ∧
      x = { s with sched := x.sched, cond := x.cond })) ∧
  (∀ (l : Link) (tag : Tag) (index : Octet) (s : State), s.takesUp (.selectZone l tag index) →
    let c := Instr.selectZone l tag index
    let near := s.key.mode = .timeCode ∨ s.key.pendingMode = some .timeCode
    (3 < index.toNat → s.Refuses c .badArgument) ∧
    (index.toNat ≤ 3 → near → s.Refuses c .onAir) ∧
    (index.toNat ≤ 3 → ¬near → s.Answers c .ok []
      (fun x => { x with sched := { x.sched with pendingZone := some index.toNat } })))

/-- R65, R71, R73, R75, R85: every step keeps the change table in order and its entries apart. -/
def Obligations.ScheduleStaysOrdered : Prop :=
  ∀ s t : State, s.sched.Ordered → step s = .next t → t.sched.Ordered

/-- R76, R77, R78, R80, R82, R87: the processing at a composition for frame minute f: which records
enter the retired list, in table order, and which zone the last zone change among them leaves, which
state and altered-minute flag every entry that stays has after it, the window opening and
SCHEDULE_CHANGE. R90, R59, R101: the second edge that begins second 50 makes the leap warning check on
the schedule as the previous composition left it, then this processing for the next minute, leaves the
record of that minute in the next-frame slot, and hands its length to the timebase. That the evaluations
of pulses paired with the edge come before is log 6. -/
def Obligations.CompositionProcessesTheSchedule : Prop :=
  (∀ (s : State) (f : Nat),
    let t := s.processSchedule f
    (∀ x ∈ t.sched.entries, f < x.e ∧ (x.announcing = true ↔ x.e ≤ f + x.lead) ∧
      (x.altered = some true → f + 1 = x.e)) ∧
    (t.sched.entries.map (·.number) = (s.sched.entries.filter (fun x => f < x.e)).map (·.number)) ∧
    t.sched.pendingZone = none ∧
    ((∀ x ∈ s.sched.entries, f < x.e) → t.sched.zone = s.sched.pendingZone.getD s.sched.zone ∧
      t.sched.retired = keepLast 8 s.sched.retired) ∧
    (∀ x, s.sched.entries.filter (fun y => y.e ≤ f) = [x] → s.sched.retired.length < 8 →
      ∃ r, t.sched.retired = s.sched.retired ++ [r] ∧ r.number = x.number ∧
        (r.atDay, r.atSec) = (s.tb.day, s.tb.sec) ∧
        r.outcome = (if x.kind = .zoneChange then (if x.e = f then .applied else .appliedLate)
          else if x.altered = some true then .applied else .missed) ∧
        t.sched.zone = x.newZone.getD (s.sched.pendingZone.getD s.sched.zone)) ∧
    (let due := s.sched.entries.filter (fun y => y.e ≤ f);
      t.sched.retired = keepLast 8 (s.sched.retired ++ due.map (fun x => {
        number := x.number, kind := x.kind, eDay := x.eDay, eMinute := x.eMinute
        newZone := x.newZone, origin := x.origin
        outcome := if x.kind = .zoneChange then (if x.e = f then .applied else .appliedLate)
          else if x.altered = some true then .applied else .missed
        withdrawnBy := none, atDay := s.tb.day, atSec := s.tb.sec })) ∧
      (∀ before x after z, due = before ++ x :: after → x.newZone = some z →
        (∀ y ∈ after, y.newZone = none) → t.sched.zone = z) ∧
      ((∀ y ∈ due, y.newZone = none) → t.sched.zone = s.sched.pendingZone.getD s.sched.zone)) ∧
    t.sched.entries = (s.sched.entries.filter (fun x => f < x.e)).map (fun x => { x with
      announcing := decide (x.e ≤ f + x.lead), altered := x.altered.map fun _ => decide (f + 1 = x.e) }) ∧
    (let opens := ∃ x ∈ s.sched.entries, f < x.e ∧ x.announcing = false ∧ x.e ≤ f + x.lead;
      (opens → t.key = { s.key with windowReport := true }) ∧ (¬opens → t.key = s.key)) ∧
    (let changes := (∃ x ∈ s.sched.entries, x.e ≤ f) ∨
        (∃ z, s.sched.pendingZone = some z ∧ z ≠ s.sched.zone) ∨
        (∃ x ∈ s.sched.entries, f < x.e ∧ x.announcing ≠ decide (x.e ≤ f + x.lead));
      (changes → t.sched.version = (s.sched.version + 1) % 65536 ∧
        t.cond.viewA.getLsbD 18 = true ∧ t.cond.viewB.getLsbD 18 = true) ∧
      (¬changes → t.sched.version = s.sched.version ∧ t.cond = s.cond)) ∧
    (t.sched.offsets, t.sched.nextNum) = (s.sched.offsets, s.sched.nextNum) ∧
    t = { s with sched := t.sched, key := t.key, cond := t.cond }) ∧
  (∀ s : State, s.por = false → s.tb.stepWaiting = false → s.tb.pendingStep = none →
    s.tb.timeSet = true → secondOfMinute s.tb.sec = 49 → 50 < s.tb.minLen →
    let f := (s.tb.day * 1440 + minuteOfDay s.tb.sec + 1) % 52596000
    ∃ t x : State, exec .secondEdge s = .next t ∧
      x = { s with
        now := t.now, tb := x.tb, ref1 := x.ref1, ref2 := x.ref2, sel := x.sel, key := x.key
        cond := x.cond, mon := s.mon.atEdge ⟨t.now, t.tb.day, t.tb.sec⟩ } ∧
      (x.tb.day, x.tb.sec) = (s.tb.day, s.tb.sec + 1) ∧
      (x.ref1.leapDis, x.ref2.leapDis) = (s.ref1.leapDis, s.ref2.leapDis) ∧
      x.key.windowReport = s.key.windowReport ∧
      (t.ref1, t.ref2) = (x.leapCheck.ref1, x.leapCheck.ref2) ∧
      (let y := x.leapCheck.processSchedule f;
        (t.sched, t.key) = (y.sched, y.key) ∧
        (∀ i, y.cond.viewA.getLsbD i = true → t.cond.viewA.getLsbD i = true) ∧
        (∀ i, y.cond.viewB.getLsbD i = true → t.cond.viewB.getLsbD i = true)) ∧
      t.comp = { s.comp with next := some (t.frameRecord f) } ∧
      t.tb.handed = some { length := (t.frameRecord f).length, minute := f })

/-! ## The composer -/

/-- R106, R107, R108: the notice texts and the pending slot, and the advance of the position when a frame
is taken. -/
def Obligations.NoticeRequestsAct : Prop :=
  (∀ (l : Link) (tag : Tag) (slot : Octet) (text : List Octet) (s : State),
    s.takesUp (.writeNotice l tag slot text) →
    let c := Instr.writeNotice l tag slot text
    (1 < slot.toNat → s.Refuses c .badArgument) ∧
    (∀ x, slot = (match x with | .s0 => 0 | .s1 => 1) →
      (s.comp.active = x → s.Refuses c .inUse) ∧
      (s.comp.active ≠ x → (32 < text.length ∨ ∃ o ∈ text, o.toNat < 0x20 ∨ 0x7E < o.toNat) →
        s.Refuses c .badArgument) ∧
      (s.comp.active ≠ x → text.length ≤ 32 → (∀ o ∈ text, 0x20 ≤ o.toNat ∧ o.toNat ≤ 0x7E) →
        s.Answers c .ok [] (fun y => { y with comp := y.comp.setText x text })))) ∧
  (∀ (l : Link) (tag : Tag) (slot : Octet) (s : State), s.takesUp (.selectNotice l tag slot) →
    (1 < slot.toNat → s.Refuses (.selectNotice l tag slot) .badArgument) ∧
    (∀ x, slot = (match x with | .s0 => 0 | .s1 => 1) →
      s.Answers (.selectNotice l tag slot) .ok [] (fun y => { y with comp := { y.comp with
        pendingSlot := if s.comp.active = x then none else some x } }))) ∧
  (∀ (k : Composer) (r : FrameRecord),
    (r.low = false → k.taken r = { k with octIdx := r.octIdx, low := true }) ∧
    (r.low = true → r.octIdx + 1 < k.activeText.length →
      k.taken r = { k with octIdx := r.octIdx + 1, low := false }) ∧
    (r.low = true → (k.activeText.length : Int) ≤ r.octIdx + 1 →
      k.taken r = { k with
        active := k.pendingSlot.getD k.active, pendingSlot := none, octIdx := -1, low := false }))

/-- R7..R12, R91..R100, R174: every frame that the composer builds passes every check that the monitor
makes on a heard frame, and heard as sent it differs from its record in no symbol. Each field of the
frame stands at its seconds and holds the civil time in the zone in effect, the leap and zone
announcements of the ANNOUNCING entries, and the quality. The calendar runs through the days of the
century by the lengths of the months. -/
def Obligations.ComposedFrameIsGood : Prop :=
  (∀ (s : State) (f : Nat) (start : Instant),
    let r := s.frameRecord f
    frameFault { start := start, syms := r.syms, excess := 0 } = none ∧
    r.syms.length = r.length ∧ differing r.syms r.syms = 0 ∧
    heardNibble r.syms = BitVec.ofNat 4 s.comp.noticeNibble ∧ heardLow r.syms = s.comp.low) ∧
  (∀ (s : State) (f : Nat),
    let r := s.frameRecord f
    let bit := fun i : Nat => r.syms[i]? = some .one
    let field := fun i n : Nat => ((List.range n).map fun j => if bit (i + j) then 2 ^ j else 0).sum
    let q := s.sched.offset s.sched.zone
    let civil := (((f : Int) + 15 * q) % 52596000).toNat
    let d := civil / 1440
    let minute := civil % 1440 % 60
    let hour := civil % 1440 / 60
    let isLeap := fun x : Entry => x.announcing = true ∧ x.kind ≠ .zoneChange
    let isZone := fun x : Entry => x.announcing = true ∧ x.kind = .zoneChange
    (r.day, r.minute, r.civDay, r.civMinute) = (f / 1440, f % 1440, d, civil % 1440) ∧
    (field 11 4, field 15 3) = (minute % 10, minute / 10) ∧
    (field 19 4, field 23 2) = (hour % 10, hour / 10) ∧
    (field 26 4, field 31 2) = (dayOfMonth d % 10, dayOfMonth d / 10) ∧ field 33 3 = weekday d ∧
    (field 36 4, field 40 1) = (monthOf d % 10, monthOf d / 10) ∧
    (field 41 4, field 45 4) = (yearOfCentury d % 10, yearOfCentury d / 10) ∧
    (bit 6 ↔ r.leap = .insert) ∧ (bit 7 ↔ r.leap = .delete) ∧ (bit 8 ↔ r.zoneAnn = true) ∧
    ((∀ x ∈ s.sched.entries, ¬isLeap x) → r.leap = .none ∧ r.length = 60) ∧
    (∀ before x rest, s.sched.entries = before ++ x :: rest → isLeap x → (∀ y ∈ before, ¬isLeap y) →
      r.leap = (if x.kind = .leapInsert then .insert else .delete) ∧
      r.length = if x.altered = some true then (if x.kind = .leapInsert then 61 else 59) else 60) ∧
    r.zone = s.sched.zone ∧
    ((∀ x ∈ s.sched.entries, ¬isZone x) → r.zoneAnn = false ∧ r.nextZone = s.sched.zone) ∧
    (∀ before x rest z, s.sched.entries = before ++ x :: rest → isZone x → x.newZone = some z →
      (∀ y ∈ before, ¬isZone y) → r.zoneAnn = true ∧ r.nextZone = z) ∧
    field 9 2 = r.zone % 4 ∧ field 52 2 = r.nextZone % 4 ∧
    r.quality = (match s.tb.disc with
      | .locked => 0
      | .holdover => if s.tb.holdAge ≤ 3600 then 1 else 2
      | .free => 3) ∧
    field 50 2 = r.quality ∧ (r.octIdx, r.low) = (s.comp.octIdx, s.comp.low) ∧
    r.syms[0]? = some .minute ∧ r.syms[30]? = some .half ∧
    (∀ i, 58 ≤ i → i < r.length → r.syms[i]? = some .zero)) ∧
  (dayOfMonth 0, monthOf 0, yearOfCentury 0, weekday 0) = (1, 1, 0, 6) ∧
  (∀ d, d < 36524 →
    let days := if monthOf d = 2 then (if yearOfCentury d % 4 = 0 then 29 else 28)
      else if monthOf d = 4 ∨ monthOf d = 6 ∨ monthOf d = 9 ∨ monthOf d = 11 then 30 else 31
    weekday (d + 1) = weekday d % 7 + 1 ∧
    (dayOfMonth (d + 1), monthOf (d + 1), yearOfCentury (d + 1)) =
      if dayOfMonth d < days then (dayOfMonth d + 1, monthOf d, yearOfCentury d)
      else if monthOf d < 12 then (1, monthOf d + 1, yearOfCentury d)
      else (1, 1, yearOfCentury d + 1))

/-! ## The off-air monitor -/

/-- R4, R168, R169, R170, R171: MON_IN_RISE opens a mark in IDLE, with its delay, a change of the line
closes the interval in progress, and a fall ends STUCK; with no second edge yet the delay is a free
value (log 5). A second edge made at that same instant by a later command is the latest at or before it:
the delay is then 0, and the mark's start is in the second that the edge begins (log 30). A closed mark
is classified, by the widths of each symbol, and becomes the last symbol; a long close is INVALID and
leaves STUCK while the line is 1. A stale mark, and one closed in OFF_AIR or CARRIER_ONLY, goes no
further (FrameIsJudgedAgainstItsRecord and AnalyzerLocksToThePattern have the other modes). With no mark
open, or, for a quiet close, with the line at 1, a close cannot occur and changes nothing (the model's
choice, log 2). -/
def Obligations.MarksAreHeardAndClassified : Prop :=
  (∀ (dt : Nat) (s : State),
    s.por = false → s.params.monitorEnable = true → s.monIn = false → s.mon.det = .idle →
    ∃ t d, exec (.monInRise dt) s = .next t ∧ d ≤ 999 ∧
      (s.tb.edgeMade = true → d = min 999 ((s.now + dt - s.tb.edgeAt) / 10000)) ∧
      t = { s with
        now := s.now + dt, monIn := true
        freeCount := if s.tb.edgeMade then s.freeCount else s.freeCount + 1
        mon := { s.mon with lastDelay := d, delayAt := some (s.now + dt), det := .mark {
          start := ⟨s.now + dt, s.tb.day, s.tb.sec⟩, widths := [], since := s.now + dt,
          stale := false } } }) ∧
  (∀ (s : State), s.por = false → s.tb.stepWaiting = false → ∃ t, exec .secondEdge s = .next t ∧
    t.mon.lastDelay = (if s.mon.delayAt = some t.now then 0 else s.mon.lastDelay) ∧
    t.mon.delayAt = s.mon.delayAt ∧
    (∀ m, s.mon.det = .mark m → ∃ stale, t.mon.det = .mark { m with
      start := if m.start.at_ = t.now then ⟨t.now, t.tb.day, t.tb.sec⟩ else m.start
      stale := stale }) ∧
    ((∀ m, s.mon.det ≠ .mark m) → t.mon.det = s.mon.det)) ∧
  (∀ (dt : Nat) (s : State) (m : OpenMark),
    s.por = false → s.params.monitorEnable = true → s.monIn = true → s.mon.det = .mark m →
    exec (.monInFall dt) s = .next { s with
      now := s.now + dt, monIn := false
      mon := { s.mon with det := .mark { m with
        widths := m.widths ++ [s.now + dt - m.since], since := s.now + dt } } }) ∧
  (∀ (dt : Nat) (s : State) (m : OpenMark),
    s.por = false → s.params.monitorEnable = true → s.monIn = false → s.mon.det = .mark m →
    exec (.monInRise dt) s = .next { s with
      now := s.now + dt, monIn := true
      mon := { s.mon with det := .mark { m with
        widths := m.widths ++ [s.now + dt - m.since], since := s.now + dt } } }) ∧
  (∀ (dt : Nat) (s : State),
    s.por = false → s.params.monitorEnable = true → s.monIn = true → s.mon.det = .stuck →
    exec (.monInFall dt) s = .next { s with
      now := s.now + dt, monIn := false, mon := { s.mon with det := .idle } }) ∧
  (∀ (dt : Nat) (s : State), s.params.monitorEnable = false →
    exec (.monInRise dt) s = .next { s with now := s.now + dt, monIn := true } ∧
    exec (.monInFall dt) s = .next { s with now := s.now + dt, monIn := false }) ∧
  (∀ (s : State) (m : OpenMark), s.por = false → s.monIn = false → s.mon.det = .mark m →
    ∃ t, exec .markQuietClose s = .next t ∧ t.now = max s.now (m.since + 1500000) ∧
      t.mon.det = .idle ∧ t.mon.lastSymbol = some (classify m.widths) ∧
      t = { s with now := t.now, mon := t.mon, cond := t.cond } ∧
      (m.stale = true ∨ s.key.mode = .offAir ∨ s.key.mode = .carrierOnly →
        t.mon = { s.mon with det := .idle, lastSymbol := some (classify m.widths) } ∧
        t.cond.live = s.cond.live)) ∧
  (∀ (s : State) (m : OpenMark), s.por = false → s.mon.det = .mark m →
    ∃ t, exec .markLongClose s = .next t ∧ t.now = max s.now (m.start.at_ + 10000000) ∧
      t.mon.det = (if s.monIn then .stuck else .idle) ∧ t.mon.lastSymbol = some .invalid ∧
      t = { s with now := t.now, mon := t.mon, cond := t.cond } ∧
      (m.stale = true ∨ s.key.mode = .offAir ∨ s.key.mode = .carrierOnly →
        t.mon = { s.mon with
          det := if s.monIn then .stuck else .idle, lastSymbol := some .invalid } ∧
        t.cond.live = s.cond.live)) ∧
  (∀ s : State, (∀ m, s.mon.det ≠ .mark m) →
    exec .markQuietClose s = .next s ∧ exec .markLongClose s = .next s) ∧
  (∀ s : State, s.monIn = true → exec .markQuietClose s = .next s) ∧
  (∀ w, (700000 ≤ w ∧ w ≤ 1300000 → classify [w] = .zero) ∧
    (1700000 ≤ w ∧ w ≤ 2300000 → classify [w] = .one) ∧
    (3700000 ≤ w ∧ w ≤ 4300000 → classify [w] = .half) ∧
    (w < 700000 ∨ (1300000 < w ∧ w < 1700000) ∨ (2300000 < w ∧ w < 3700000) ∨ 4300000 < w →
      classify [w] = .invalid)) ∧
  (∀ u v w, classify [u, v, w] = if (700000 ≤ u ∧ u ≤ 1300000) ∧ (700000 ≤ v ∧ v ≤ 1300000) ∧
    (700000 ≤ w ∧ w ≤ 1300000) then .minute else .invalid) ∧
  (∀ ws : List Nat, ws.length ≠ 1 → ws.length ≠ 3 → classify ws = .invalid)

/-- R173, R176, R177, R178: a frame timer expiry is one bad frame with reason TIMEOUT, restarts the timer
and acts on the bad run; INJECT_MONITOR_ERROR sets its flag in TIME_CODE only. -/
def Obligations.FrameTimeoutIsABadFrame : Prop :=
  (∀ (s : State) (at_ : Nat), s.por = false → s.mon.timer = some at_ →
    ∃ t, exec .frameTimerExpiry s = .next t ∧ t.now = max s.now at_ ∧
      t.mon.timer = some (max s.now at_ + 620000000) ∧ t.mon.coll = none ∧
      (t.mon.collecting, t.mon.octets, t.mon.heldHigh) = (false, [], none) ∧
      (∃ f, t.mon.lastFrame = some f ∧ f.reason = some .timeout ∧ f.syms = [] ∧ f.excess = 0) ∧
      t.cond.live[Counter.monFramesBad.id] =
        min 4294967295 (s.cond.live[Counter.monFramesBad.id] + 1) ∧
      (s.mon.frameLost = false → s.mon.bad + 1 < s.params.lofSet →
        t.mon.frameLost = false ∧ t.mon.bad = s.mon.bad + 1) ∧
      (s.mon.frameLost = false → s.params.lofSet ≤ s.mon.bad + 1 →
        t.mon.frameLost = true ∧ (t.mon.bad, t.mon.good) = (0, 0) ∧
        t.cond.active.getLsbD 10 = true) ∧
      (s.mon.frameLost = true → t.mon.frameLost = true ∧ t.mon.good = 0) ∧
      t = { s with now := t.now, mon := t.mon, cond := t.cond }) ∧
  (∀ (l : Link) (tag : Tag) (s : State), s.takesUp (.injectMonitorError l tag) →
    ((s.key.mode ≠ .timeCode ∨ s.params.monitorEnable = false) →
      s.Refuses (.injectMonitorError l tag) .notReady) ∧
    (s.key.mode = .timeCode → s.params.monitorEnable = true →
      s.Answers (.injectMonitorError l tag) .ok []
        (fun x => { x with mon := { x.mon with inject := true } })))

/-- R12, R174: the five checks of a closed collection in their order, each with its reason, in terms of
the symbols at the positions. R175: the record that a good frame is matched against, whose second-0 edge
is the latest not after the frame's start (the sent history keeps them in order, BoundsAreKept), and the
count of differing symbols. R175, R176, R177, R178, R179: the judgement of a closed collection. One that
fails a check is a bad frame with that reason and no record; a good one is matched against the latest
record sent at or before its start, with one more differing symbol where an error is injected. That the
number of differing symbols of a frame with no record is that one more alone is the model's choice (log
7). R179: the nibble of every good frame goes to the notice assembly, from its symbols at positions 1 to
5. R178: the runs and FRAME_LOST follow every judgement, whichever check or comparison makes it a bad
frame. R172, R173: a mark that a quiet close ends in TIME_CODE opens, fills or closes the collection,
and one that a long close ends adds an INVALID symbol to it. -/
def Obligations.FrameIsJudgedAgainstItsRecord : Prop :=
  (∀ c : Collection, (0 < c.excess → c.syms.length = 62) →
    let n := c.syms.length + c.excess
    let one := fun i : Nat => decide (c.syms[i]? = some .one)
    let from_ := fun i j : Nat => List.range' i (j + 1 - i)
    let length := 59 ≤ n ∧ n ≤ 61
    let known := ∀ i : Nat, c.syms[i]? ≠ some .invalid
    let marker := c.syms[30]? = some .half ∧
      ∀ (i : Nat) x, 1 ≤ i → i ≠ 30 → c.syms[i]? = some x → x = .zero ∨ x = .one
    let parity := ((from_ 11 18).countP one) % 2 = 0 ∧ ((from_ 19 25).countP one) % 2 = 0 ∧
      ((from_ 26 29 ++ from_ 31 49).countP one) % 2 = 0
    let check := crc4 ((from_ 1 29 ++ from_ 31 53).map one)
    let crc := ∀ i : Nat, i < 4 → one (54 + i) = check.getLsbD (3 - i)
    (¬length → frameFault c = some .length) ∧
    (length → ¬known → frameFault c = some .invalidSymbol) ∧
    (length → known → ¬marker → frameFault c = some .marker) ∧
    (length → known → marker → ¬parity → frameFault c = some .parity) ∧
    (length → known → marker → parity → ¬crc → frameFault c = some .crc) ∧
    (length → known → marker → parity → crc → frameFault c = none)) ∧
  (crc4 [] = 0 ∧ ∀ (bits : List Bool) (b : Bool), crc4 (bits ++ [b]) =
    if b ^^ (crc4 bits).getLsbD 3 then (crc4 bits <<< 1) ^^^ 3 else crc4 bits <<< 1) ∧
  (∀ (k : Keyer) (start : Nat),
    ((∀ g ∈ k.history, start < g.edgeAt) → k.recordAt start = none) ∧
    (∀ before f after, k.history = before ++ f :: after → f.edgeAt ≤ start →
      (∀ g ∈ after, start < g.edgeAt) → k.recordAt start = some f) ∧
    (∀ f, k.history.Pairwise (fun g h => g.edgeAt ≤ h.edgeAt) → k.recordAt start = some f →
      f ∈ k.history ∧ f.edgeAt ≤ start ∧
        ∀ g ∈ k.history, g.edgeAt ≤ start → g.edgeAt ≤ f.edgeAt)) ∧
  (∀ heard sent : List Symbol, differing heard sent =
    (List.range (min heard.length sent.length)).countP (fun i => decide (heard[i]? ≠ sent[i]?)) +
      (max heard.length sent.length - min heard.length sent.length)) ∧
  (∀ (s : State) (c : Collection),
    let t := s.judge c
    let bad := t.cond.live[Counter.monFramesBad.id] =
        min 4294967295 (s.cond.live[Counter.monFramesBad.id] + 1) ∧
      (s.mon.frameLost = false → s.mon.bad + 1 < s.params.lofSet →
        t.mon.frameLost = false ∧ (t.mon.bad, t.mon.good) = (s.mon.bad + 1, s.mon.good)) ∧
      (s.mon.frameLost = false → s.params.lofSet ≤ s.mon.bad + 1 →
        t.mon.frameLost = true ∧ (t.mon.bad, t.mon.good) = (0, 0)) ∧
      (s.mon.frameLost = true → t.mon.frameLost = true ∧ (t.mon.bad, t.mon.good) = (s.mon.bad, 0))
    (∀ i : Fin 12, i ≠ Counter.monFramesGood.id → i ≠ Counter.monFramesBad.id →
      i ≠ Counter.monSymbolErrors.id → t.cond.live[i] = s.cond.live[i]) ∧
    t = { s with mon := t.mon, cond := t.cond } ∧
    (∀ r, frameFault c = some r →
      (∃ f, t.mon.lastFrame = some f ∧ f.reason = some r ∧ f.matched = none ∧ f.syms = c.syms) ∧
      bad ∧ t.cond.live[Counter.monSymbolErrors.id] = s.cond.live[Counter.monSymbolErrors.id] ∧
      t.cond.live[Counter.monFramesGood.id] = s.cond.live[Counter.monFramesGood.id] ∧
      (t.mon.collecting, t.mon.octets, t.mon.heldHigh) = (false, [], none) ∧
      t.mon.inject = s.mon.inject ∧ (t.cond.viewA, t.cond.viewB) = (s.cond.viewA, s.cond.viewB)) ∧
    (frameFault c = none →
      let one := fun i => c.syms[i]? = some .one
      let n := s.mon.nibble (decide (one 5)) (BitVec.ofNat 4
        ((if one 1 then 1 else 0) + (if one 2 then 2 else 0) + (if one 3 then 4 else 0) +
          (if one 4 then 8 else 0)))
      (t.mon.collecting, t.mon.octets, t.mon.heldHigh, t.mon.rxText, t.mon.rxCycles) =
        (n.collecting, n.octets, n.heldHigh, n.rxText, n.rxCycles)) ∧
    (frameFault c = none → s.key.recordAt c.start.at_ = none →
      (∃ f, t.mon.lastFrame = some f ∧ f.reason = some .noRecord ∧ f.matched = none ∧
        f.differing = s.mon.inject.toNat ∧ f.injected = s.mon.inject) ∧
      bad ∧ t.cond.live[Counter.monFramesGood.id] = s.cond.live[Counter.monFramesGood.id] ∧
      t.cond.live[Counter.monSymbolErrors.id] =
        min 4294967295 (s.cond.live[Counter.monSymbolErrors.id] + s.mon.inject.toNat) ∧
      t.mon.inject = false ∧ t.cond.viewA.getLsbD 19 = true ∧ t.cond.viewB.getLsbD 19 = true) ∧
    (∀ k, frameFault c = none → s.key.recordAt c.start.at_ = some k →
      (c.syms = k.record.syms → s.mon.inject = false →
        (∃ f, t.mon.lastFrame = some f ∧ f.reason = none ∧ f.differing = 0 ∧
          f.matched = some (k.record.day, k.record.minute)) ∧
        t.cond.live[Counter.monFramesGood.id] =
          min 4294967295 (s.cond.live[Counter.monFramesGood.id] + 1) ∧
        t.cond.live[Counter.monFramesBad.id] = s.cond.live[Counter.monFramesBad.id] ∧
        t.cond.live[Counter.monSymbolErrors.id] =
          min 4294967295 s.cond.live[Counter.monSymbolErrors.id] ∧
        (s.mon.frameLost = false →
          t.mon.frameLost = false ∧ (t.mon.bad, t.mon.good) = (0, s.mon.good)) ∧
        (s.mon.frameLost = true → s.params.lofClear ≤ s.mon.good + 1 →
          t.mon.frameLost = false ∧ (t.mon.bad, t.mon.good) = (0, 0)) ∧
        (s.mon.frameLost = true → s.mon.good + 1 < s.params.lofClear →
          t.mon.frameLost = true ∧ (t.mon.bad, t.mon.good) = (s.mon.bad, s.mon.good + 1)) ∧
        (t.cond.viewA, t.cond.viewB) = (s.cond.viewA, s.cond.viewB)) ∧
      (c.syms ≠ k.record.syms ∨ s.mon.inject = true →
        (∃ f, t.mon.lastFrame = some f ∧ f.reason = some .mismatch ∧ 0 < f.differing ∧
          f.differing = differing c.syms k.record.syms + s.mon.inject.toNat ∧
          f.injected = s.mon.inject ∧ f.matched = some (k.record.day, k.record.minute) ∧
          t.cond.live[Counter.monSymbolErrors.id] =
            min 4294967295 (s.cond.live[Counter.monSymbolErrors.id] + f.differing)) ∧
        bad ∧ t.cond.live[Counter.monFramesGood.id] = s.cond.live[Counter.monFramesGood.id] ∧
        t.mon.inject = false ∧ t.cond.viewA.getLsbD 19 = true ∧ t.cond.viewB.getLsbD 19 = true))) ∧
  (∀ (s : State) (m : OpenMark), s.por = false → s.monIn = false → s.key.mode = .timeCode →
    s.mon.det = .mark m → m.stale = false →
    let x := classify m.widths
    let heard := { s.mon with det := .idle, lastSymbol := some x }
    ∃ t, exec .markQuietClose s = .next t ∧
      (x ≠ .minute → s.mon.coll = none → t.mon = heard) ∧
      (∀ c, x ≠ .minute → s.mon.coll = some c →
        (c.syms.length < 62 → t.mon = { heard with coll := some { c with syms := c.syms ++ [x] } }) ∧
        (62 ≤ c.syms.length → t.mon = { heard with
          coll := some { c with excess := if c.excess < 255 then c.excess + 1 else 255 } })) ∧
      (x = .minute → t.mon.coll = some { start := m.start, syms := [.minute], excess := 0 } ∧
        t.mon.timer = some (t.now + 620000000) ∧ t.now = max s.now (m.since + 1500000) ∧
        (s.mon.coll = none → t.mon = { heard with coll := t.mon.coll, timer := t.mon.timer }) ∧
        (∀ c, s.mon.coll = some c →
          let y := { s with now := t.now, mon := heard }.judge c
          t.mon = { y.mon with coll := t.mon.coll, timer := t.mon.timer } ∧
          t.cond.live = y.cond.live))) ∧
  (∀ (s : State) (m : OpenMark), s.por = false → s.key.mode = .timeCode → s.mon.det = .mark m →
    m.stale = false →
    let heard := { s.mon with
      det := if s.monIn then .stuck else .idle, lastSymbol := some .invalid }
    ∃ t, exec .markLongClose s = .next t ∧ t.cond.live = s.cond.live ∧
      (s.mon.coll = none → t.mon = heard) ∧
      (∀ c, s.mon.coll = some c →
        (c.syms.length < 62 →
          t.mon = { heard with coll := some { c with syms := c.syms ++ [.invalid] } }) ∧
        (62 ≤ c.syms.length → t.mon = { heard with
          coll := some { c with excess := if c.excess < 255 then c.excess + 1 else 255 } })))

/-- R105, R179, R180: a whole cycle of the notice channel, nibble by nibble from one start octet to the
next, leaves exactly the text sent in the received notice buffer, whatever the assembly held before. Each good
frame hands its nibble over so (FrameIsJudgedAgainstItsRecord). -/
def Obligations.NoticeCycleIsReassembled : Prop :=
  ∀ (m : Monitor) (text : List Octet), text.length ≤ 32 →
    (∀ o ∈ text, 0x20 ≤ o.toNat ∧ o.toNat ≤ 0x7E) →
    let hear := fun (m : Monitor) (o : Octet) =>
      (m.nibble false (o.extractLsb' 4 4)).nibble true (o.extractLsb' 0 4)
    let t := (0x01#8 :: text ++ [0x01#8]).foldl hear m
    t.rxText = text ∧ t.collecting = true ∧ t.octets = [] ∧ t.heldHigh = none ∧
    (m.collecting = false → t.rxCycles = (m.rxCycles + 1) % 65536)

/-- R17, R181, R182: an analyzer in HUNTING with an empty list, hearing the pattern from any point of
it, goes to CHECKING at the 15th symbol with its generator in step, and to IN_SYNC at the 31st. A miss
in CHECKING returns it to HUNTING and is not counted; each miss in IN_SYNC is counted, and the fourth in
a row returns it to HUNTING. A mark that a quiet close ends in TEST_PATTERN is heard so, and one that a
long close ends is heard as INVALID, which is no symbol of the pattern. That the runs keep their values
on the return to HUNTING is log 21. -/
def Obligations.AnalyzerLocksToThePattern : Prop :=
  (∀ (s : State) (g : BitVec 15), s.mon.an = .hunting → s.mon.hunt = [] → g ≠ 0 →
    let hear := fun (n : Nat) =>
      (List.range n).foldl (fun (s : State) i => s.analyze (genSymbol (genStep^[i] g))) s
    (∀ n, n < 15 → (hear n).mon.an = .hunting) ∧
    ((hear 15).mon.an = .checking ∧ (hear 15).mon.gen = genStep^[15] g ∧ (hear 15).mon.correct = 0) ∧
    (∀ n, 15 ≤ n → n < 31 → (hear n).mon.an = .checking) ∧
    (∀ n, 31 ≤ n → (hear n).mon.an = .inSync ∧ (hear n).mon.gen = genStep^[n] g ∧
      (hear n).mon.miss = 0 ∧ (hear n).cond = s.cond)) ∧
  (∀ (s : State) (x : Symbol), s.mon.an = .checking → x ≠ genSymbol s.mon.gen →
    let t := s.analyze x
    t.mon.an = .hunting ∧ t.mon.hunt = [] ∧ t.cond = s.cond ∧
      t = { s with mon := { s.mon with an := .hunting, hunt := [], gen := genStep s.mon.gen } }) ∧
  (∀ (s : State) (x : Symbol), s.mon.an = .inSync →
    let t := s.analyze x
    t.mon.gen = genStep s.mon.gen ∧ t = { s with mon := t.mon, cond := t.cond } ∧
    (x = genSymbol s.mon.gen → t.mon.an = .inSync ∧ t.mon.miss = 0 ∧ t.cond = s.cond) ∧
    (x ≠ genSymbol s.mon.gen → t.cond = (s.count .monPatternErrors 1).cond ∧
      t.cond.live[Counter.monPatternErrors.id] =
        min 4294967295 (s.cond.live[Counter.monPatternErrors.id] + 1) ∧
      (s.mon.miss < 3 → t.mon.an = .inSync ∧ t.mon.miss = s.mon.miss + 1) ∧
      (3 ≤ s.mon.miss → t.mon.an = .hunting ∧ t.mon.hunt = []))) ∧
  (∀ (s : State) (m : OpenMark), s.por = false → s.monIn = false → s.key.mode = .testPattern →
    s.mon.det = .mark m → m.stale = false →
    let heard := { s.mon with det := .idle, lastSymbol := some (classify m.widths) }
    ∃ t, exec .markQuietClose s = .next t ∧
      t.mon = ({ s with mon := heard }.analyze (classify m.widths)).mon ∧
      t.cond.live = ({ s with mon := heard }.analyze (classify m.widths)).cond.live) ∧
  (∀ (s : State) (m : OpenMark), s.por = false → s.key.mode = .testPattern → s.mon.det = .mark m →
    m.stale = false →
    let heard := { s.mon with
      det := if s.monIn then .stuck else .idle, lastSymbol := some .invalid }
    ∃ t, exec .markLongClose s = .next t ∧
      (s.mon.an = .hunting → t.mon = { heard with hunt := [] } ∧ t.cond.live = s.cond.live) ∧
      (s.mon.an = .checking → t.mon = { heard with
        an := .hunting, hunt := [], gen := genStep s.mon.gen } ∧ t.cond.live = s.cond.live) ∧
      (s.mon.an = .inSync →
        t.mon = (if s.mon.miss < 3 then
          { heard with miss := s.mon.miss + 1, gen := genStep s.mon.gen }
          else { heard with
            miss := s.mon.miss + 1, an := .hunting, hunt := [], gen := genStep s.mon.gen }) ∧
        t.cond.live = (s.count .monPatternErrors 1).cond.live))

/-! ## The amplifier bus -/

/-- R151, R152, R153, R155, R156, R157, R158: ATTEMPT_SENT opens the answer window; an answer within it
to a scan read of an address in the range sets its record and moves the scan on; an expiry begins a
further attempt, or ends the read NO_ANSWER, which makes the record SILENT and moves the scan on as an
answer does. After either end the oldest relay waiting begins, else the next scan read with SCAN_ENABLE
on. Only the range at the end of a read is tested (log 28), and a read that a change of the range
overtook leaves the scan position (log 16). 2 ms are counted as 20,000 cycles and an answer at the end
of the window is within it (log 15); a later answer, which cannot end an attempt, changes nothing (the
model's choice, log 2). -/
def Obligations.ScanReadSetsItsRecord : Prop :=
  let ended := fun (s t : State) (x : Txn) (r : ScanRec) =>
    (1 ≤ x.address → x.address ≤ 31 → s.bus.first ≤ x.address → x.address ≤ s.bus.last →
      t.bus.record x.address = r ∧
      (∀ a, 1 ≤ a → a ≤ 31 → a ≠ x.address → t.bus.record a = s.bus.record a) ∧
      ((s.bus.record x.address).st ≠ r.st →
        t.cond.viewA.getLsbD 21 = true ∧ t.cond.viewB.getLsbD 21 = true) ∧
      ((s.bus.record x.address).st = r.st →
        (t.cond.viewA.getLsbD 21, t.cond.viewB.getLsbD 21) =
          (s.cond.viewA.getLsbD 21, s.cond.viewB.getLsbD 21))) ∧
    (¬(s.bus.first ≤ x.address ∧ x.address ≤ s.bus.last) → t.bus.table = s.bus.table ∧
      (t.cond.viewA.getLsbD 21, t.cond.viewB.getLsbD 21) =
        (s.cond.viewA.getLsbD 21, s.cond.viewB.getLsbD 21)) ∧
    (x.rangeChanged = false →
      t.bus.pos = if s.bus.last ≤ s.bus.pos then s.bus.first else s.bus.pos + 1) ∧
    (x.rangeChanged = true → t.bus.pos = s.bus.pos) ∧
    ((∀ z ∈ s.bus.queue, z.underWay = false) → s.GoesOn t s.bus.queue) ∧
    t = { s with now := t.now, bus := t.bus, cond := t.cond }
  (∀ (dt : Nat) (s : State) (x : Txn), s.por = false → s.bus.txn = some x → x.phase = .sending →
    exec (.attemptSent dt) s = .next { s with
      now := s.now + dt
      bus := { s.bus with txn := some { x with phase := .window (s.now + dt + 20000) } } }) ∧
  (∀ (dt : Nat) (w : BitVec 16) (s : State) (x : Txn) (e : Nat),
    s.por = false → s.bus.txn = some x → x.phase = .window e → s.now + dt ≤ e → x.scan = true →
    ∃ t, exec (.moduleAnswer w dt) s = .next t ∧ t.now = s.now + dt ∧
      ended s t x { st := moduleStateOf w, status := some w, passes := 0 }) ∧
  (∀ (dt : Nat) (w : BitVec 16) (s : State) (x : Txn) (e : Nat),
    s.por = false → s.bus.txn = some x → x.phase = .window e → e < s.now + dt →
    exec (.moduleAnswer w dt) s = .next { s with now := s.now + dt }) ∧
  (∀ (s : State) (x : Txn) (e : Nat),
    s.por = false → s.bus.txn = some x → x.phase = .window e → x.attempts ≤ x.retries →
    ∃ t, exec .answerWindowExpiry s = .next t ∧ t.now = max s.now e ∧
      t.bus = { s.bus with txn := some { x with attempts := x.attempts + 1, phase := .sending } } ∧
      t.cond.live[Counter.ampRetriesCount.id] =
        min 4294967295 (s.cond.live[Counter.ampRetriesCount.id] + 1) ∧
      t = { s with now := t.now, bus := t.bus, cond := t.cond }) ∧
  (∀ (s : State) (x : Txn) (e : Nat),
    s.por = false → s.bus.txn = some x → x.phase = .window e → x.retries < x.attempts →
    x.scan = true →
    ∃ t, exec .answerWindowExpiry s = .next t ∧ t.now = max s.now e ∧
      ended s t x { s.bus.record x.address with
        st := .silent, passes := min 255 ((s.bus.record x.address).passes + 1) } ∧
      (1 ≤ x.address → x.address ≤ 31 → s.bus.first ≤ x.address → x.address ≤ s.bus.last →
        t.cond.active.getLsbD 9 = true) ∧
      t.cond.live[Counter.ampNoAnswer.id] =
        min 4294967295 (s.cond.live[Counter.ampNoAnswer.id] + 1))

/-- R153, R158, R160, R161, R162: MODULE_READ and MODULE_WRITE are checked and enter the relay queue, at
whose end they wait while a transaction is in progress and where they begin on an idle bus; the end of a
relay transaction, ANSWERED or NO_ANSWER, takes its entry from the queue and, if the response is still
wanted, gives it on the entry's link alone, where the outstanding entry becomes ANSWERED. An answered
read of register 0 of an address in the range sets that record, and no other end of a relay changes the
table. The bus then begins the oldest relay waiting, else a scan read if SCAN_ENABLE is on. -/
def Obligations.RelayIsQueuedAndAnswered : Prop :=
  let accepted := fun (c : Instr) (s : State) (l : Link) (y : RelayEntry) =>
    (s.bus.txn.isSome = true → ∃ t, exec c s = .next t ∧
      t.bus = { s.bus with queue := s.bus.queue ++ [y] } ∧ (t.link l).output = (s.link l).output ∧
      t = { s with bus := t.bus, linkA := t.linkA, linkB := t.linkB, exe := t.exe, cond := t.cond }) ∧
    (s.bus.txn = none → s.bus.queue = [] → ∃ t, exec c s = .next t ∧
      t.bus = { s.bus with
        queue := [{ y with underWay := true }]
        txn := some (s.firstAttempt false y.address y.register y.value) } ∧
      (t.link l).output = (s.link l).output ∧
      t = { s with bus := t.bus, linkA := t.linkA, linkB := t.linkB, exe := t.exe, cond := t.cond })
  let ended := fun (s t : State) (y : RelayEntry) (rest : List RelayEntry) (r : Result)
      (data : List Octet) =>
    let code : Octet := if y.value.isSome then 0x81 else 0x80
    let mine := fun e : Outstanding => e.st = .inRelay ∧ e.req.tag = y.tag ∧ e.req.code = code
    (y.wanted = true →
      (t.link y.link).output = (s.link y.link).output ++ [{
        tag := y.tag, code := code, result := r, data := data, atOnce := false, relayed := true }] ∧
      t.link y.link.other = s.link y.link.other ∧
      (∀ before e after, (s.link y.link).outstanding = before ++ e :: after → mine e →
        (∀ z ∈ before, ¬mine z) →
        (t.link y.link).outstanding = before ++ { e with st := .answered } :: after)) ∧
    (y.wanted = false → (t.linkA, t.linkB) = (s.linkA, s.linkB)) ∧
    s.GoesOn t rest ∧ t.bus.pos = s.bus.pos ∧
    t = { s with now := t.now, bus := t.bus, linkA := t.linkA, linkB := t.linkB, cond := t.cond }
  (∀ (l : Link) (tag : Tag) (a r : Octet) (s : State), s.takesUp (.moduleRead l tag a r) →
    let c := Instr.moduleRead l tag a r
    ((a = 0 ∨ 31 < a.toNat ∨ 15 < r.toNat) → s.Refuses c .badArgument) ∧
    (a ≠ 0 → a.toNat ≤ 31 → r.toNat ≤ 15 → 4 ≤ s.bus.queue.length → s.Refuses c .busy) ∧
    (a ≠ 0 → a.toNat ≤ 31 → r.toNat ≤ 15 → s.bus.queue.length < 4 → accepted c s l {
      link := l, tag := tag, address := a.toNat, register := r.toNat, value := none
      underWay := false, wanted := true })) ∧
  (∀ (l : Link) (tag : Tag) (a r : Octet) (v : BitVec 16) (s : State),
    s.takesUp (.moduleWrite l tag a r v) →
    let c := Instr.moduleWrite l tag a r v
    ((a = 0 ∨ 31 < a.toNat ∨ 15 < r.toNat) → s.Refuses c .badArgument) ∧
    (a ≠ 0 → a.toNat ≤ 31 → r.toNat ≤ 15 → 4 ≤ s.bus.queue.length → s.Refuses c .busy) ∧
    (a ≠ 0 → a.toNat ≤ 31 → r.toNat ≤ 15 → s.bus.queue.length < 4 → accepted c s l {
      link := l, tag := tag, address := a.toNat, register := r.toNat, value := some v
      underWay := false, wanted := true })) ∧
  (∀ (dt : Nat) (w : BitVec 16) (s : State) (x : Txn) (e : Nat) (y : RelayEntry) (rest : List RelayEntry),
    s.por = false → s.bus.txn = some x → x.phase = .window e → s.now + dt ≤ e → x.scan = false →
    s.bus.queue = y :: rest → y.underWay = true → (∀ z ∈ rest, z.underWay = false) →
    x.value = y.value →
    ∃ t, exec (.moduleAnswer w dt) s = .next t ∧ t.now = s.now + dt ∧
      ended s t y rest .ok (octetsBE 2 (y.value.getD w).toNat ++ octetsBE 1 x.attempts) ∧
      (let heard := x.value = none ∧ x.register = 0 ∧
          (s.bus.first ≤ x.address ∧ x.address ≤ s.bus.last);
        (heard → 1 ≤ x.address → x.address ≤ 31 →
          t.bus.record x.address = { st := moduleStateOf w, status := some w, passes := 0 } ∧
          (∀ a, 1 ≤ a → a ≤ 31 → a ≠ x.address → t.bus.record a = s.bus.record a) ∧
          ((s.bus.record x.address).st ≠ moduleStateOf w →
            t.cond.viewA.getLsbD 21 = true ∧ t.cond.viewB.getLsbD 21 = true)) ∧
        (¬heard → t.bus.table = s.bus.table ∧
          t.cond.viewA.getLsbD 21 = s.cond.viewA.getLsbD 21 ∧
          t.cond.viewB.getLsbD 21 = s.cond.viewB.getLsbD 21))) ∧
  (∀ (s : State) (x : Txn) (e : Nat) (y : RelayEntry) (rest : List RelayEntry),
    s.por = false → s.bus.txn = some x → x.phase = .window e → x.retries < x.attempts →
    x.scan = false → s.bus.queue = y :: rest → y.underWay = true →
    (∀ z ∈ rest, z.underWay = false) →
    ∃ t, exec .answerWindowExpiry s = .next t ∧ t.now = max s.now e ∧
      ended s t y rest .noAnswer (octetsBE 1 x.attempts) ∧ t.bus.table = s.bus.table ∧
      t.cond.live[Counter.ampNoAnswer.id] =
        min 4294967295 (s.cond.live[Counter.ampNoAnswer.id] + 1))

/-- R158, R159: SET_SCAN is refused, or writes MIN_MODULES and the range; an address that leaves the
range becomes UNKNOWN, with MODULE_CHANGE if it was not, and the others keep their records; a
transaction in progress runs on, a scan read as one that a change of the range overtook, whose end
leaves the scan position at first (log 16, ScanReadSetsItsRecord). The widths of the response are log 7.
-/
def Obligations.SetScanChangesTheRange : Prop :=
  ∀ (l : Link) (tag : Tag) (first last m : Octet) (s : State),
  s.takesUp (.setScan l tag first last m) →
    let c := Instr.setScan l tag first last m
    let m' := if 31 < m.toNat then 31 else m.toNat
    (¬(1 ≤ first.toNat ∧ first.toNat ≤ last.toNat ∧ last.toNat ≤ 31) → s.Refuses c .badArgument) ∧
    (1 ≤ first.toNat → first.toNat ≤ last.toNat → last.toNat ≤ 31 →
      (first.toNat = s.bus.first → last.toNat = s.bus.last →
        s.Answers c .ok [first, last, BitVec.ofNat 8 m']
          (fun x => { x with params := { x.params with minModules := m' } })) ∧
      (¬(first.toNat = s.bus.first ∧ last.toNat = s.bus.last) →
        ∃ x, s.AnswersWith c .ok [first, last, BitVec.ofNat 8 m'] x ∧
          x.params = { s.params with minModules := m' } ∧
          (x.bus.first, x.bus.last, x.bus.pos) = (first.toNat, last.toNat, first.toNat) ∧
          x.bus.queue = s.bus.queue ∧
          (∀ a, 1 ≤ a → a ≤ 31 → x.bus.record a =
            if (s.bus.first ≤ a ∧ a ≤ s.bus.last) ∧ ¬(first.toNat ≤ a ∧ a ≤ last.toNat) then
              { st := .unknown, status := none, passes := 0 } else s.bus.record a) ∧
          ((∃ a, a ≤ 31 ∧ (s.bus.first ≤ a ∧ a ≤ s.bus.last) ∧
              ¬(first.toNat ≤ a ∧ a ≤ last.toNat) ∧ (s.bus.record a).st ≠ .unknown) →
            x.cond.viewA.getLsbD 21 = true ∧ x.cond.viewB.getLsbD 21 = true) ∧
          ((∀ a, a ≤ 31 → (s.bus.first ≤ a ∧ a ≤ s.bus.last) →
              ¬(first.toNat ≤ a ∧ a ≤ last.toNat) → (s.bus.record a).st = .unknown) →
            x.cond = s.cond) ∧
          x.bus.txn =
            (s.bus.txn.map fun y => { y with rangeChanged := y.scan || y.rangeChanged }) ∧
          x = { s with params := x.params, bus := x.bus, cond := x.cond }))

/-! ## Parameters, readings and bounds -/

/-- R216: SET_PARAM takes the nearest end of the range and stores it under its id alone; READ_PARAM
reports it with the range and the default. R167: MONITOR_ENABLE turned off clears what the monitor is
making, and turned on starts the detector by MON_IN and, in TIME_CODE, the frame timer. R156:
SCAN_ENABLE turned on begins a scan read of the scan position on an idle bus; a transaction in progress,
the table and the scan position stay. That MONITOR_ENABLE turned off keeps the analyzer's runs and
generator is log 21. That READ_PARAM gives the range as its lower and then its upper end is log 7. -/
def Obligations.ParametersAreClampedAndRead : Prop :=
  (∀ (l : Link) (tag : Tag) (id : Octet) (v : BitVec 16) (s : State),
    s.takesUp (.setParam l tag id v) →
    let c := Instr.setParam l tag id v
    (16 < id.toNat → s.Refuses c .badArgument) ∧
    (∀ r, paramTable[id.toNat]? = some r →
      let taken := if v.toNat < r.lo then r.lo else if r.hi < v.toNat then r.hi else v.toNat
      ∃ x, s.AnswersWith c .ok (id :: octetsBE 2 taken) x ∧
        x.params.get id.toNat = taken ∧
        (∀ j, j ≠ id.toNat → x.params.get j = s.params.get j) ∧
        (id ≠ 15 → x.mon = s.mon) ∧ (id ≠ 16 → x.bus = s.bus) ∧
        (s.params.get id.toNat = taken → x = s) ∧
        (id = 15 → s.params.monitorEnable = true → taken = 0 → x.mon = { s.mon with
          det := .idle, coll := none, timer := none, bad := 0, good := 0, frameLost := false
          inject := false, collecting := false, octets := [], heldHigh := none, an := .hunting
          hunt := [] }) ∧
        (id = 15 → s.params.monitorEnable = false → taken = 1 → x.mon = { s.mon with
          det := if s.monIn then .stuck else .idle
          timer := if s.key.mode = .timeCode then some (s.now + 620000000) else s.mon.timer }) ∧
        (id = 16 → taken = 0 ∨ s.bus.txn.isSome = true → x.bus = s.bus) ∧
        (id = 16 → s.params.scanEnable = false → taken = 1 → s.bus.txn = none → s.bus.queue = [] →
          x.bus = { s.bus with txn := some {
            scan := true, address := s.bus.pos, register := 0, value := none
            retries := s.params.ampRetries, attempts := 1, phase := .sending
            rangeChanged := false } }) ∧
        x = { s with params := x.params, mon := x.mon, bus := x.bus })) ∧
  (∀ (l : Link) (tag : Tag) (id : Octet) (s : State), s.takesUp (.readParam l tag id) →
    (16 < id.toNat → s.Refuses (.readParam l tag id) .badArgument) ∧
    (∀ r, paramTable[id.toNat]? = some r →
      s.Answers (.readParam l tag id) .ok
        (id :: octetsBE 2 (s.params.get id.toNat) ++ octetsBE 2 r.lo ++ octetsBE 2 r.hi ++
          octetsBE 2 r.default) (fun x => x)))

/-- R40, R60, R67, R83, R84, R109, R132, R148, R163, R180, R185: reading changes nothing, and is refused only
for a part or position that is not there. Every reading request carries the values of its rule as they
stand, in their order: D and S as 0 while UNSET, the quality of R35, the frequencies in mHz rounded down.
A refused reading of the schedule or of the retired list carries the schedule version alone. The widths
and the order that R209 leaves open, and that nothing goes with that version, are log 7. -/
def Obligations.ReadingChangesNothing : Prop :=
  (∀ (l : Link) (tag : Tag) (s : State), s.takesUp (.readTime l tag) →
    let t := s.tb
    let day := if t.timeSet then t.day else 0
    let sec := if t.timeSet then t.sec else 0
    let quality := match t.disc with
      | .locked => 0
      | .holdover => if t.holdAge ≤ 3600 then 1 else 2
      | .free => 3
    s.Answers (.readTime l tag) .ok
      (encFlag t.timeSet ++ octetsBE 2 day ++ octetsBE 3 sec ++
        octetsBE 1 (if sec = 86400 then 60 else sec % 60) ++ octetsBE 1 t.minLen ++
        encOption (fun h : Handed => octetsBE 1 h.length ++ octetsBE 4 h.minute) t.handed ++
        octetsBE 1 t.freeSec ++ octetsBE 2 t.freeMin ++ encDiscipline t.disc ++
        octetsBE 2 t.holdAge ++ octetsBE 1 quality ++ encSource t.source ++ octetsBE 4 s.presence ++
        signedBE 2 t.trim ++ encFlag t.trimValid ++ octetsBE 1 t.k ++ octetsBE 1 t.winCount ++
        signedBE 3 t.winSum ++ signedBE 2 t.lastCorr ++ encFlag t.lastSlew ++ encFlag t.stepWaiting ++
        encOption (fun x : Nat × Nat => octetsBE 2 x.1 ++ octetsBE 3 x.2) t.pendingStep) id) ∧
  (∀ (l : Link) (tag : Tag) (s : State), s.takesUp (.readSynth l tag) →
    let y := s.synth
    s.Answers (.readSynth l tag) .ok
      (encSynthState y.st ++ octetsBE 2 y.n ++ octetsBE 2 y.k ++ octetsBE 1 y.p ++ octetsBE 1 y.b ++
        octetsBE 5 (10000000000 / y.k) ++ octetsBE 5 (10000000000 * y.n / y.k) ++
        octetsBE 5 (10000000000 * y.n / (y.k * (256 * 2 ^ y.p))) ++
        octetsBE 1 y.inRun ++ octetsBE 1 y.outRun ++ encJudgement y.last ++
        encSource s.tb.source) id) ∧
  (∀ (l : Link) (tag : Tag) (s : State), s.takesUp (.readReferences l tag) →
    let a := s.ref1
    let b := s.ref2
    let label := fun x : Label => octetsBE 2 x.day ++ octetsBE 3 x.sec ++ encLeap x.leap
    s.Answers (.readReferences l tag) .ok
      (encSelectMode s.sel.mode ++ encRefChoice s.sel.selection ++ encRefChoice s.sel.manual ++
        encFlag a.enable ++ encPortState a.st ++ encFlag b.enable ++ encPortState b.st ++
        octetsBE 1 a.goodRun ++ octetsBE 1 a.irregRun ++ octetsBE 1 a.unlabRun ++ octetsBE 1 a.missed ++
        octetsBE 1 b.goodRun ++ octetsBE 1 b.irregRun ++ octetsBE 1 b.unlabRun ++ octetsBE 1 b.missed ++
        encOption label a.last ++ encOption label b.last ++
        encFlag a.waiting.isSome ++ encFlag b.waiting.isSome ++
        signedBE 4 a.lastOffset ++ signedBE 4 b.lastOffset ++ encFlag a.leapDis ++ encFlag b.leapDis ++
        encOption (octetsBE 3) s.sel.diff ++ encFlag s.sel.disagree) id) ∧
  (∀ (l : Link) (tag : Tag) (part : Octet) (s : State), s.takesUp (.readMonitor l tag part) →
    let c := Instr.readMonitor l tag part
    let m := s.mon
    (part = 0 → s.Answers c .ok
      (octetsBE 2 s.params.monitorEnable.toNat ++ encDetector m.det ++
        encOption (fun x : Symbol => octetsBE 1 x.code) m.lastSymbol ++ octetsBE 2 m.lastDelay ++
        encFlag m.coll.isSome ++
        (match m.coll with
          | none => [0, 0]
          | some x => octetsBE 1 x.syms.length ++ octetsBE 1 x.excess) ++
        encOption (fun t => octetsBE 4 (t - s.now)) m.timer ++
        encFlag m.frameLost ++ octetsBE 1 m.bad ++ octetsBE 1 m.good ++
        octetsBE 2 s.params.lofSet ++ octetsBE 2 s.params.lofClear ++ encFlag m.inject ++
        encAnalyzer m.an ++ octetsBE 1 m.hunt.length ++ octetsBE 1 m.correct ++ octetsBE 1 m.miss ++
        octetsBE 2 m.gen.toNat ++
        encFlag (decide (s.key.mode = .testPattern ∧ s.params.monitorEnable = true ∧ m.an ≠ .inSync)))
      id) ∧
    (part = 1 → m.lastFrame = none → s.Answers c .ok [0] id) ∧
    (∀ f, part = 1 → m.lastFrame = some f → s.Answers c .ok
      (1 :: encFlag f.reason.isSome ++ encOption encReason f.reason ++
        octetsBE 2 (f.syms.length + f.excess) ++ encSymbols 4 f.syms ++ octetsBE 1 f.excess ++
        octetsBE 2 f.start.day ++ octetsBE 3 f.start.sec ++
        encOption (fun x : Nat × Nat => octetsBE 2 x.1 ++ octetsBE 2 x.2) f.matched ++
        octetsBE 1 f.differing ++ encFlag f.injected) id) ∧
    (1 < part.toNat → s.Refuses c .badArgument)) ∧
  (∀ (l : Link) (tag : Tag) (part : Octet) (s : State), s.takesUp (.readNotice l tag part) →
    let c := Instr.readNotice l tag part
    let state := encSlot s.comp.active ++ encOption encSlot s.comp.pendingSlot ++
      signedBE 1 s.comp.octIdx ++ encFlag s.comp.low ++
      encOption (fun r : FrameRecord =>
        octetsBE 2 r.day ++ octetsBE 2 r.minute ++ octetsBE 1 r.length ++ encLeap r.leap) s.comp.next
    (part = 0 → s.Answers c .ok (encString s.comp.text0 ++ state) id) ∧
    (part = 1 → s.Answers c .ok (encString s.comp.text1 ++ state) id) ∧
    (part = 2 → s.Answers c .ok
      (encString s.mon.rxText ++ octetsBE 2 s.mon.rxCycles ++ encFlag s.mon.collecting ++
        octetsBE 1 s.mon.octets.length ++
        encOption (fun h : BitVec 4 => octetsBE 1 h.toNat) s.mon.heldHigh) id) ∧
    (2 < part.toNat → s.Refuses c .badArgument)) ∧
  (∀ (l : Link) (tag : Tag) (part : Octet) (s : State), s.takesUp (.readModules l tag part) →
    let c := Instr.readModules l tag part
    let count := fun st : ModuleState => octetsBE 1 (s.bus.table.toList.countP (·.st = st))
    let entry := fun x : RelayEntry => encLink x.link ++ encFlag x.value.isSome ++
      octetsBE 1 x.address ++ octetsBE 1 x.register ++ encFlag x.underWay ++ encFlag x.wanted
    (part = 0 → s.Answers c .ok
      (octetsBE 1 s.bus.first ++ octetsBE 1 s.bus.last ++ octetsBE 2 s.params.scanEnable.toNat ++
        octetsBE 2 s.params.minModules ++ octetsBE 1 s.bus.pos ++ octetsBE 1 s.bus.contributing ++
        encFlag s.bus.alarm ++ count .unknown ++ count .ok ++ count .warning ++ count .fault ++
        count .silent ++ encFlag s.bus.txn.isSome ++
        encFlag (match s.bus.txn with
          | some x => x.scan
          | none => false) ++
        encFlag (decide (s.bus.queue ≠ [])) ++ octetsBE 1 s.bus.queue.length ++
        s.bus.queue.flatMap entry) id) ∧
    (1 ≤ part.toNat → part.toNat ≤ 31 →
      let r := s.bus.record part.toNat
      s.Answers c .ok
        (encModuleState r.st ++ encOption (fun w : BitVec 16 => octetsBE 2 w.toNat) r.status ++
          octetsBE 1 r.passes) id) ∧
    (31 < part.toNat → s.Refuses c .badArgument)) ∧
  (∀ (l : Link) (tag : Tag) (part : Octet) (s : State), s.takesUp (.readKeyer l tag part) →
    let c := Instr.readKeyer l tag part
    let k := s.key
    (part = 0 → s.Answers c .ok
      (encMode k.mode ++ encOption encMode k.pendingMode ++
        encOption (fun x : OffReq => encFlag x.until_.isSome ++
          encOption (fun e : Nat × Nat => octetsBE 2 e.1 ++ octetsBE 2 e.2) x.until_ ++
          encFlag x.deferred) k.offReq ++
        encOption (fun x : Maint => octetsBE 2 x.endDay ++ octetsBE 2 x.endMinute ++
          encMode x.resume ++ encFlag x.due) k.maint ++
        encFlag k.windowReport ++ encFlag k.hold ++ octetsBE 2 k.full ++ octetsBE 2 k.reduced ++
        encFlag s.txReady ++ octetsBE 1 s.bus.contributing ++ octetsBE 2 s.params.minModules ++
        encFlag s.transmitterReady ++ octetsBE 2 k.gen.toNat ++ octetsBE 1 k.history.length ++
        encOption (fun f : Keyed => octetsBE 2 f.record.day ++ octetsBE 2 f.record.minute) k.current)
      id) ∧
    (∀ f, 1 ≤ part.toNat → part.toNat ≤ 4 → k.history[part.toNat - 1]? = some f →
      let r := f.record
      s.Answers c .ok
        (octetsBE 2 r.day ++ octetsBE 2 r.minute ++ octetsBE 2 r.civDay ++ octetsBE 2 r.civMinute ++
          octetsBE 1 r.length ++ signedBE 1 r.octIdx ++ encFlag r.low ++ encLeap r.leap ++
          encFlag r.zoneAnn ++ octetsBE 1 r.zone ++ octetsBE 1 r.nextZone ++ octetsBE 1 r.quality ++
          octetsBE 1 r.crc.toNat ++ octetsBE 1 r.announcing.length ++
          r.announcing.flatMap (octetsBE 1) ++ encSymbols 2 r.syms ++
          octetsBE 2 f.edgeDay ++ octetsBE 3 f.edgeSec) id) ∧
    (k.history.length < part.toNat → part.toNat ≤ 4 → s.Refuses c .notFound) ∧
    (4 < part.toNat → s.Refuses c .badArgument)) ∧
  (∀ (l : Link) (tag : Tag) (part : Octet) (s : State), s.takesUp (.readSchedule l tag part) →
    let c := Instr.readSchedule l tag part
    let y := s.sched
    (part = 0 → s.Answers c .ok
      (octetsBE 1 y.entries.length ++ octetsBE 1 y.nextNum ++ octetsBE 2 y.version ++
        encFlag (y.entries.any (·.announcing)) ++ octetsBE 1 y.zone ++
        encOption (octetsBE 1) y.pendingZone ++ signedBE 1 y.offsets[0] ++ signedBE 1 y.offsets[1] ++
        signedBE 1 y.offsets[2] ++ signedBE 1 y.offsets[3]) id) ∧
    (∀ x, 1 ≤ part.toNat → part.toNat ≤ 16 → y.entries[part.toNat - 1]? = some x →
      s.Answers c .ok
        (octetsBE 1 y.entries.length ++ octetsBE 2 y.version ++ octetsBE 1 x.number ++
          encKind x.kind ++ octetsBE 2 x.eDay ++ octetsBE 2 x.eMinute ++
          encOption (octetsBE 1) x.newZone ++ octetsBE 2 x.lead ++ encLink x.origin ++
          octetsBE 2 x.postedDay ++ octetsBE 3 x.postedSec ++ encFlag x.announcing ++
          encOption encFlag x.altered) id) ∧
    (y.entries.length < part.toNat → part.toNat ≤ 16 →
      s.Answers c .notFound (octetsBE 2 y.version) id) ∧
    (16 < part.toNat → s.Answers c .badArgument (octetsBE 2 y.version) id)) ∧
  (∀ (l : Link) (tag : Tag) (part : Octet) (s : State), s.takesUp (.readRetired l tag part) →
    let c := Instr.readRetired l tag part
    let y := s.sched
    (part = 0 → s.Answers c .ok (octetsBE 1 y.retired.length ++ octetsBE 2 y.version) id) ∧
    (∀ x, 1 ≤ part.toNat → part.toNat ≤ 8 → y.retired[part.toNat - 1]? = some x →
      s.Answers c .ok
        (octetsBE 1 y.retired.length ++ octetsBE 2 y.version ++ octetsBE 1 x.number ++
          encKind x.kind ++ octetsBE 2 x.eDay ++ octetsBE 2 x.eMinute ++
          encOption (octetsBE 1) x.newZone ++ encLink x.origin ++ encOutcome x.outcome ++
          encOption encLink x.withdrawnBy ++ octetsBE 2 x.atDay ++ octetsBE 3 x.atSec) id) ∧
    (y.retired.length < part.toNat → part.toNat ≤ 8 →
      s.Answers c .notFound (octetsBE 2 y.version) id) ∧
    (8 < part.toNat → s.Answers c .badArgument (octetsBE 2 y.version) id))

/-- R65, R82, R112, R160, R166, R172, R180, R210, R216: every step keeps every list that the manual
bounds within its bound (outstanding lists, immediate responses, change table, retired list, notice
texts, sent history, relay queue, collection, notice assembly, received notice, hunting list) and every
parameter within its range. R152, R153, R155, R159, R160, R161, R163: it keeps the amplifier bus, its
transaction and its relay queue in order, and the bus is idle only with nothing to do. R51, R54, R55: it
keeps the selection on a QUALIFIED port in AUTO, equal to the stored choice in MANUAL, and off a
DISABLED one. R129, R175: it keeps the frames sent in the order of their edges. -/
def Obligations.BoundsAreKept : Prop :=
  (∀ s t : State, s.Bounded → step s = .next t → t.Bounded) ∧
  (∀ s t : State, s.BusOrdered → step s = .next t → t.BusOrdered) ∧
  (∀ s t : State, s.Selected → step s = .next t → t.Selected) ∧
  (∀ s t : State, s.FramesInOrder → step s = .next t → t.FramesInOrder)

/-- The state after a power-on reset meets every invariant of Safety.lean. -/
def Obligations.ResetMeetsTheInvariants : Prop :=
  State.reset.ConditionsExact ∧ State.reset.ViewsHoldActive ∧ State.reset.Bounded ∧
  State.reset.Steered ∧ State.reset.TimeInRange ∧ State.reset.key.Ordered ∧
  State.reset.CarrierMade ∧ State.reset.sched.Ordered ∧ State.reset.BusOrdered ∧
  State.reset.Selected ∧ State.reset.FramesInOrder
end

