-- ==== Sys2Proof/Laws/State.lean ====
section
/-! SUPPORT. What each basic update of the state leaves alone: one lemma per update, a simp rule for
each field. -/

namespace Sys2Proof.Machine

@[simp] theorem State.wait_frame (s : State) (dt : Nat) :
    (s.wait dt).por = s.por ∧ (s.wait dt).txReady = s.txReady ∧ (s.wait dt).monIn = s.monIn ∧
      (s.wait dt).freqFrom = s.freqFrom ∧ (s.wait dt).params = s.params ∧ (s.wait dt).tb = s.tb ∧
      (s.wait dt).ref1 = s.ref1 ∧ (s.wait dt).ref2 = s.ref2 ∧ (s.wait dt).sel = s.sel ∧
      (s.wait dt).synth = s.synth ∧ (s.wait dt).sched = s.sched ∧ (s.wait dt).comp = s.comp ∧
      (s.wait dt).key = s.key ∧ (s.wait dt).bus = s.bus ∧ (s.wait dt).mon = s.mon ∧
      (s.wait dt).cond = s.cond ∧ (s.wait dt).linkA = s.linkA ∧ (s.wait dt).linkB = s.linkB ∧
      (s.wait dt).exe = s.exe ∧ (s.wait dt).pending = s.pending ∧ (s.wait dt).freeCount = s.freeCount := by
  simp [State.wait]

@[simp] theorem State.waitUntil_frame (s : State) (t : Nat) :
    (s.waitUntil t).por = s.por ∧ (s.waitUntil t).txReady = s.txReady ∧ (s.waitUntil t).monIn = s.monIn ∧
      (s.waitUntil t).freqFrom = s.freqFrom ∧ (s.waitUntil t).params = s.params ∧ (s.waitUntil t).tb = s.tb ∧
      (s.waitUntil t).ref1 = s.ref1 ∧ (s.waitUntil t).ref2 = s.ref2 ∧ (s.waitUntil t).sel = s.sel ∧
      (s.waitUntil t).synth = s.synth ∧ (s.waitUntil t).sched = s.sched ∧ (s.waitUntil t).comp = s.comp ∧
      (s.waitUntil t).key = s.key ∧ (s.waitUntil t).bus = s.bus ∧ (s.waitUntil t).mon = s.mon ∧
      (s.waitUntil t).cond = s.cond ∧ (s.waitUntil t).linkA = s.linkA ∧ (s.waitUntil t).linkB = s.linkB ∧
      (s.waitUntil t).exe = s.exe ∧ (s.waitUntil t).pending = s.pending ∧ (s.waitUntil t).freeCount = s.freeCount := by
  simp [State.waitUntil]

@[simp] theorem State.setLink_frame (s : State) (l : Link) (x : LinkState) :
    (s.setLink l x).por = s.por ∧ (s.setLink l x).txReady = s.txReady ∧ (s.setLink l x).monIn = s.monIn ∧
      (s.setLink l x).freqFrom = s.freqFrom ∧ (s.setLink l x).now = s.now ∧ (s.setLink l x).params = s.params ∧
      (s.setLink l x).tb = s.tb ∧ (s.setLink l x).ref1 = s.ref1 ∧ (s.setLink l x).ref2 = s.ref2 ∧
      (s.setLink l x).sel = s.sel ∧ (s.setLink l x).synth = s.synth ∧ (s.setLink l x).sched = s.sched ∧
      (s.setLink l x).comp = s.comp ∧ (s.setLink l x).key = s.key ∧ (s.setLink l x).bus = s.bus ∧
      (s.setLink l x).mon = s.mon ∧ (s.setLink l x).cond = s.cond ∧ (s.setLink l x).exe = s.exe ∧
      (s.setLink l x).pending = s.pending ∧ (s.setLink l x).freeCount = s.freeCount := by
  cases l <;> simp [State.setLink]

@[simp] theorem State.setPort_frame (s : State) (p : Port) (x : RefPort) :
    (s.setPort p x).por = s.por ∧ (s.setPort p x).txReady = s.txReady ∧ (s.setPort p x).monIn = s.monIn ∧
      (s.setPort p x).freqFrom = s.freqFrom ∧ (s.setPort p x).now = s.now ∧ (s.setPort p x).params = s.params ∧
      (s.setPort p x).tb = s.tb ∧ (s.setPort p x).sel = s.sel ∧ (s.setPort p x).synth = s.synth ∧
      (s.setPort p x).sched = s.sched ∧ (s.setPort p x).comp = s.comp ∧ (s.setPort p x).key = s.key ∧
      (s.setPort p x).bus = s.bus ∧ (s.setPort p x).mon = s.mon ∧ (s.setPort p x).cond = s.cond ∧
      (s.setPort p x).linkA = s.linkA ∧ (s.setPort p x).linkB = s.linkB ∧ (s.setPort p x).exe = s.exe ∧
      (s.setPort p x).pending = s.pending ∧ (s.setPort p x).freeCount = s.freeCount := by
  cases p <;> simp [State.setPort]

@[simp] theorem State.raise_frame (s : State) (e : Event) :
    (s.raise e).por = s.por ∧ (s.raise e).txReady = s.txReady ∧ (s.raise e).monIn = s.monIn ∧
      (s.raise e).freqFrom = s.freqFrom ∧ (s.raise e).now = s.now ∧ (s.raise e).params = s.params ∧
      (s.raise e).tb = s.tb ∧ (s.raise e).ref1 = s.ref1 ∧ (s.raise e).ref2 = s.ref2 ∧
      (s.raise e).sel = s.sel ∧ (s.raise e).synth = s.synth ∧ (s.raise e).sched = s.sched ∧
      (s.raise e).comp = s.comp ∧ (s.raise e).key = s.key ∧ (s.raise e).bus = s.bus ∧
      (s.raise e).mon = s.mon ∧ (s.raise e).linkA = s.linkA ∧ (s.raise e).linkB = s.linkB ∧
      (s.raise e).exe = s.exe ∧ (s.raise e).pending = s.pending ∧ (s.raise e).freeCount = s.freeCount := by
  simp [State.raise]

@[simp] theorem State.raiseIf_frame (s : State) (b : Bool) (e : Event) :
    (s.raiseIf b e).por = s.por ∧ (s.raiseIf b e).txReady = s.txReady ∧ (s.raiseIf b e).monIn = s.monIn ∧
      (s.raiseIf b e).freqFrom = s.freqFrom ∧ (s.raiseIf b e).now = s.now ∧ (s.raiseIf b e).params = s.params ∧
      (s.raiseIf b e).tb = s.tb ∧ (s.raiseIf b e).ref1 = s.ref1 ∧ (s.raiseIf b e).ref2 = s.ref2 ∧
      (s.raiseIf b e).sel = s.sel ∧ (s.raiseIf b e).synth = s.synth ∧ (s.raiseIf b e).sched = s.sched ∧
      (s.raiseIf b e).comp = s.comp ∧ (s.raiseIf b e).key = s.key ∧ (s.raiseIf b e).bus = s.bus ∧
      (s.raiseIf b e).mon = s.mon ∧ (s.raiseIf b e).linkA = s.linkA ∧ (s.raiseIf b e).linkB = s.linkB ∧
      (s.raiseIf b e).exe = s.exe ∧ (s.raiseIf b e).pending = s.pending ∧ (s.raiseIf b e).freeCount = s.freeCount := by
  unfold State.raiseIf; split <;> simp

@[simp] theorem State.count_frame (s : State) (c : Counter) (n : Nat) :
    (s.count c n).por = s.por ∧ (s.count c n).txReady = s.txReady ∧ (s.count c n).monIn = s.monIn ∧
      (s.count c n).freqFrom = s.freqFrom ∧ (s.count c n).now = s.now ∧ (s.count c n).params = s.params ∧
      (s.count c n).tb = s.tb ∧ (s.count c n).ref1 = s.ref1 ∧ (s.count c n).ref2 = s.ref2 ∧
      (s.count c n).sel = s.sel ∧ (s.count c n).synth = s.synth ∧ (s.count c n).sched = s.sched ∧
      (s.count c n).comp = s.comp ∧ (s.count c n).key = s.key ∧ (s.count c n).bus = s.bus ∧
      (s.count c n).mon = s.mon ∧ (s.count c n).linkA = s.linkA ∧ (s.count c n).linkB = s.linkB ∧
      (s.count c n).exe = s.exe ∧ (s.count c n).pending = s.pending ∧ (s.count c n).freeCount = s.freeCount := by
  simp [State.count]

@[simp] theorem State.settle_frame (s : State) :
    (s.settle).por = s.por ∧ (s.settle).txReady = s.txReady ∧ (s.settle).monIn = s.monIn ∧
      (s.settle).freqFrom = s.freqFrom ∧ (s.settle).now = s.now ∧ (s.settle).params = s.params ∧
      (s.settle).tb = s.tb ∧ (s.settle).ref1 = s.ref1 ∧ (s.settle).ref2 = s.ref2 ∧
      (s.settle).sel = s.sel ∧ (s.settle).synth = s.synth ∧ (s.settle).sched = s.sched ∧
      (s.settle).comp = s.comp ∧ (s.settle).key = s.key ∧ (s.settle).bus = s.bus ∧
      (s.settle).mon = s.mon ∧ (s.settle).linkA = s.linkA ∧ (s.settle).linkB = s.linkB ∧
      (s.settle).exe = s.exe ∧ (s.settle).pending = s.pending ∧ (s.settle).freeCount = s.freeCount := by
  simp [State.settle]

@[simp] theorem State.resetViews_frame (s : State) :
    (s.resetViews).por = s.por ∧ (s.resetViews).txReady = s.txReady ∧ (s.resetViews).monIn = s.monIn ∧
      (s.resetViews).freqFrom = s.freqFrom ∧ (s.resetViews).now = s.now ∧ (s.resetViews).params = s.params ∧
      (s.resetViews).tb = s.tb ∧ (s.resetViews).ref1 = s.ref1 ∧ (s.resetViews).ref2 = s.ref2 ∧
      (s.resetViews).sel = s.sel ∧ (s.resetViews).synth = s.synth ∧ (s.resetViews).sched = s.sched ∧
      (s.resetViews).comp = s.comp ∧ (s.resetViews).key = s.key ∧ (s.resetViews).bus = s.bus ∧
      (s.resetViews).mon = s.mon ∧ (s.resetViews).linkA = s.linkA ∧ (s.resetViews).linkB = s.linkB ∧
      (s.resetViews).exe = s.exe ∧ (s.resetViews).pending = s.pending ∧ (s.resetViews).freeCount = s.freeCount := by
  simp [State.resetViews]

end Sys2Proof.Machine
end

