-- ==== Sys2Proof/Laws/Frames.lean ====
section
/-! SUPPORT. The frame of every shared operation: the parts of the state that it leaves as they are,
as one lemma per operation and a simp rule for each part. -/

namespace Sys2Proof.Machine

/-- What every update of a fold keeps, the whole fold keeps. -/
theorem foldl_keeps {σ α : Type} {f : σ → α → σ} {P : σ → Prop} (h : ∀ s a, P s → P (f s a)) :
    ∀ (xs : List α) (s : σ), P s → P (xs.foldl f s)
  | [], _, hs => hs
  | x :: xs, s, hs => foldl_keeps h xs (f s x) (h s x hs)

@[simp] theorem State.countDiscard_frame (s : State) (l : Link) :
    (s.countDiscard l).por = s.por ∧ (s.countDiscard l).txReady = s.txReady ∧ (s.countDiscard l).monIn = s.monIn ∧
      (s.countDiscard l).freqFrom = s.freqFrom ∧ (s.countDiscard l).now = s.now ∧ (s.countDiscard l).params = s.params ∧
      (s.countDiscard l).tb = s.tb ∧ (s.countDiscard l).ref1 = s.ref1 ∧ (s.countDiscard l).ref2 = s.ref2 ∧
      (s.countDiscard l).sel = s.sel ∧ (s.countDiscard l).synth = s.synth ∧ (s.countDiscard l).sched = s.sched ∧
      (s.countDiscard l).comp = s.comp ∧ (s.countDiscard l).key = s.key ∧ (s.countDiscard l).bus = s.bus ∧
      (s.countDiscard l).mon = s.mon ∧ (s.countDiscard l).linkA = s.linkA ∧ (s.countDiscard l).linkB = s.linkB ∧
      (s.countDiscard l).exe = s.exe ∧ (s.countDiscard l).pending = s.pending ∧ (s.countDiscard l).freeCount = s.freeCount := by
  cases l <;> simp [State.countDiscard]

@[simp] theorem State.giveAtOnce_frame (s : State) (l : Link) (q : Request) (r : Result) :
    (s.giveAtOnce l q r).por = s.por ∧ (s.giveAtOnce l q r).txReady = s.txReady ∧ (s.giveAtOnce l q r).monIn = s.monIn ∧
      (s.giveAtOnce l q r).freqFrom = s.freqFrom ∧ (s.giveAtOnce l q r).now = s.now ∧ (s.giveAtOnce l q r).params = s.params ∧
      (s.giveAtOnce l q r).tb = s.tb ∧ (s.giveAtOnce l q r).ref1 = s.ref1 ∧ (s.giveAtOnce l q r).ref2 = s.ref2 ∧
      (s.giveAtOnce l q r).sel = s.sel ∧ (s.giveAtOnce l q r).synth = s.synth ∧ (s.giveAtOnce l q r).sched = s.sched ∧
      (s.giveAtOnce l q r).comp = s.comp ∧ (s.giveAtOnce l q r).key = s.key ∧ (s.giveAtOnce l q r).bus = s.bus ∧
      (s.giveAtOnce l q r).mon = s.mon ∧ (s.giveAtOnce l q r).exe = s.exe ∧ (s.giveAtOnce l q r).pending = s.pending ∧
      (s.giveAtOnce l q r).freeCount = s.freeCount := by
  simp only [State.giveAtOnce]; split <;> simp

@[simp] theorem State.arrive_frame (s : State) (l : Link) (q : Request) :
    (s.arrive l q).por = s.por ∧ (s.arrive l q).txReady = s.txReady ∧ (s.arrive l q).monIn = s.monIn ∧
      (s.arrive l q).freqFrom = s.freqFrom ∧ (s.arrive l q).now = s.now ∧ (s.arrive l q).params = s.params ∧
      (s.arrive l q).tb = s.tb ∧ (s.arrive l q).ref1 = s.ref1 ∧ (s.arrive l q).ref2 = s.ref2 ∧
      (s.arrive l q).sel = s.sel ∧ (s.arrive l q).synth = s.synth ∧ (s.arrive l q).sched = s.sched ∧
      (s.arrive l q).comp = s.comp ∧ (s.arrive l q).key = s.key ∧ (s.arrive l q).bus = s.bus ∧
      (s.arrive l q).mon = s.mon ∧ (s.arrive l q).exe = s.exe ∧ (s.arrive l q).pending = s.pending ∧
      (s.arrive l q).freeCount = s.freeCount := by
  simp only [State.arrive]; repeat' split
  all_goals simp

@[simp] theorem State.ensureTaken_frame (s : State) (l : Link) (q : Request) :
    (s.ensureTaken l q).por = s.por ∧ (s.ensureTaken l q).txReady = s.txReady ∧ (s.ensureTaken l q).monIn = s.monIn ∧
      (s.ensureTaken l q).freqFrom = s.freqFrom ∧ (s.ensureTaken l q).now = s.now ∧ (s.ensureTaken l q).params = s.params ∧
      (s.ensureTaken l q).tb = s.tb ∧ (s.ensureTaken l q).ref1 = s.ref1 ∧ (s.ensureTaken l q).ref2 = s.ref2 ∧
      (s.ensureTaken l q).sel = s.sel ∧ (s.ensureTaken l q).synth = s.synth ∧ (s.ensureTaken l q).sched = s.sched ∧
      (s.ensureTaken l q).comp = s.comp ∧ (s.ensureTaken l q).key = s.key ∧ (s.ensureTaken l q).bus = s.bus ∧
      (s.ensureTaken l q).mon = s.mon ∧ (s.ensureTaken l q).exe = s.exe ∧ (s.ensureTaken l q).pending = s.pending ∧
      (s.ensureTaken l q).freeCount = s.freeCount := by
  unfold State.ensureTaken; split <;> simp

@[simp] theorem State.respond_frame (s : State) (l : Link) (st : EntryState) (tag : Tag) (code : Octet) (r : Result)
    (data : List Octet) :
    (s.respond l st tag code r data).por = s.por ∧ (s.respond l st tag code r data).txReady = s.txReady ∧ (s.respond l st tag code r data).monIn = s.monIn ∧
      (s.respond l st tag code r data).freqFrom = s.freqFrom ∧ (s.respond l st tag code r data).now = s.now ∧ (s.respond l st tag code r data).params = s.params ∧
      (s.respond l st tag code r data).tb = s.tb ∧ (s.respond l st tag code r data).ref1 = s.ref1 ∧ (s.respond l st tag code r data).ref2 = s.ref2 ∧
      (s.respond l st tag code r data).sel = s.sel ∧ (s.respond l st tag code r data).synth = s.synth ∧ (s.respond l st tag code r data).sched = s.sched ∧
      (s.respond l st tag code r data).comp = s.comp ∧ (s.respond l st tag code r data).key = s.key ∧ (s.respond l st tag code r data).bus = s.bus ∧
      (s.respond l st tag code r data).mon = s.mon ∧ (s.respond l st tag code r data).cond = s.cond ∧ (s.respond l st tag code r data).exe = s.exe ∧
      (s.respond l st tag code r data).pending = s.pending ∧ (s.respond l st tag code r data).freeCount = s.freeCount := by
  simp [State.respond]

@[simp] theorem State.rxKeep_frame (s : State) (l : Link) (x : RxState) :
    (s.rxKeep l x).por = s.por ∧ (s.rxKeep l x).txReady = s.txReady ∧ (s.rxKeep l x).monIn = s.monIn ∧
      (s.rxKeep l x).freqFrom = s.freqFrom ∧ (s.rxKeep l x).now = s.now ∧ (s.rxKeep l x).params = s.params ∧
      (s.rxKeep l x).tb = s.tb ∧ (s.rxKeep l x).ref1 = s.ref1 ∧ (s.rxKeep l x).ref2 = s.ref2 ∧
      (s.rxKeep l x).sel = s.sel ∧ (s.rxKeep l x).synth = s.synth ∧ (s.rxKeep l x).sched = s.sched ∧
      (s.rxKeep l x).comp = s.comp ∧ (s.rxKeep l x).key = s.key ∧ (s.rxKeep l x).bus = s.bus ∧
      (s.rxKeep l x).mon = s.mon ∧ (s.rxKeep l x).cond = s.cond ∧ (s.rxKeep l x).exe = s.exe ∧
      (s.rxKeep l x).pending = s.pending ∧ (s.rxKeep l x).freeCount = s.freeCount := by
  simp [State.rxKeep]

@[simp] theorem State.rxHunt_frame (s : State) (l : Link) :
    (s.rxHunt l).por = s.por ∧ (s.rxHunt l).txReady = s.txReady ∧ (s.rxHunt l).monIn = s.monIn ∧
      (s.rxHunt l).freqFrom = s.freqFrom ∧ (s.rxHunt l).now = s.now ∧ (s.rxHunt l).params = s.params ∧
      (s.rxHunt l).tb = s.tb ∧ (s.rxHunt l).ref1 = s.ref1 ∧ (s.rxHunt l).ref2 = s.ref2 ∧
      (s.rxHunt l).sel = s.sel ∧ (s.rxHunt l).synth = s.synth ∧ (s.rxHunt l).sched = s.sched ∧
      (s.rxHunt l).comp = s.comp ∧ (s.rxHunt l).key = s.key ∧ (s.rxHunt l).bus = s.bus ∧
      (s.rxHunt l).mon = s.mon ∧ (s.rxHunt l).cond = s.cond ∧ (s.rxHunt l).exe = s.exe ∧
      (s.rxHunt l).pending = s.pending ∧ (s.rxHunt l).freeCount = s.freeCount := by
  simp [State.rxHunt]

@[simp] theorem State.rxDiscard_frame (s : State) (l : Link) :
    (s.rxDiscard l).por = s.por ∧ (s.rxDiscard l).txReady = s.txReady ∧ (s.rxDiscard l).monIn = s.monIn ∧
      (s.rxDiscard l).freqFrom = s.freqFrom ∧ (s.rxDiscard l).now = s.now ∧ (s.rxDiscard l).params = s.params ∧
      (s.rxDiscard l).tb = s.tb ∧ (s.rxDiscard l).ref1 = s.ref1 ∧ (s.rxDiscard l).ref2 = s.ref2 ∧
      (s.rxDiscard l).sel = s.sel ∧ (s.rxDiscard l).synth = s.synth ∧ (s.rxDiscard l).sched = s.sched ∧
      (s.rxDiscard l).comp = s.comp ∧ (s.rxDiscard l).key = s.key ∧ (s.rxDiscard l).bus = s.bus ∧
      (s.rxDiscard l).mon = s.mon ∧ (s.rxDiscard l).exe = s.exe ∧ (s.rxDiscard l).pending = s.pending ∧
      (s.rxDiscard l).freeCount = s.freeCount := by
  simp [State.rxDiscard]

@[simp] theorem State.frameArrived_frame (s : State) (l : Link) (body : List Octet) :
    (s.frameArrived l body).por = s.por ∧ (s.frameArrived l body).txReady = s.txReady ∧ (s.frameArrived l body).monIn = s.monIn ∧
      (s.frameArrived l body).freqFrom = s.freqFrom ∧ (s.frameArrived l body).now = s.now ∧ (s.frameArrived l body).params = s.params ∧
      (s.frameArrived l body).tb = s.tb ∧ (s.frameArrived l body).ref1 = s.ref1 ∧ (s.frameArrived l body).ref2 = s.ref2 ∧
      (s.frameArrived l body).sel = s.sel ∧ (s.frameArrived l body).synth = s.synth ∧ (s.frameArrived l body).sched = s.sched ∧
      (s.frameArrived l body).comp = s.comp ∧ (s.frameArrived l body).key = s.key ∧ (s.frameArrived l body).bus = s.bus ∧
      (s.frameArrived l body).mon = s.mon ∧ (s.frameArrived l body).exe = s.exe ∧ (s.frameArrived l body).pending = s.pending ∧
      (s.frameArrived l body).freeCount = s.freeCount := by
  unfold State.frameArrived; split <;> simp

@[simp] theorem State.rxOctet_frame (s : State) (l : Link) (o : Octet) :
    (s.rxOctet l o).por = s.por ∧ (s.rxOctet l o).txReady = s.txReady ∧ (s.rxOctet l o).monIn = s.monIn ∧
      (s.rxOctet l o).freqFrom = s.freqFrom ∧ (s.rxOctet l o).now = s.now ∧ (s.rxOctet l o).params = s.params ∧
      (s.rxOctet l o).tb = s.tb ∧ (s.rxOctet l o).ref1 = s.ref1 ∧ (s.rxOctet l o).ref2 = s.ref2 ∧
      (s.rxOctet l o).sel = s.sel ∧ (s.rxOctet l o).synth = s.synth ∧ (s.rxOctet l o).sched = s.sched ∧
      (s.rxOctet l o).comp = s.comp ∧ (s.rxOctet l o).key = s.key ∧ (s.rxOctet l o).bus = s.bus ∧
      (s.rxOctet l o).mon = s.mon ∧ (s.rxOctet l o).exe = s.exe ∧ (s.rxOctet l o).pending = s.pending ∧
      (s.rxOctet l o).freeCount = s.freeCount := by
  unfold State.rxOctet; repeat' split
  all_goals simp

@[simp] theorem State.setSynth_frame (s : State) (y : Synth) :
    (s.setSynth y).por = s.por ∧ (s.setSynth y).txReady = s.txReady ∧ (s.setSynth y).monIn = s.monIn ∧
      (s.setSynth y).freqFrom = s.freqFrom ∧ (s.setSynth y).now = s.now ∧ (s.setSynth y).params = s.params ∧
      (s.setSynth y).tb = s.tb ∧ (s.setSynth y).ref1 = s.ref1 ∧ (s.setSynth y).ref2 = s.ref2 ∧
      (s.setSynth y).sel = s.sel ∧ (s.setSynth y).sched = s.sched ∧ (s.setSynth y).comp = s.comp ∧
      (s.setSynth y).key = s.key ∧ (s.setSynth y).bus = s.bus ∧ (s.setSynth y).mon = s.mon ∧
      (s.setSynth y).linkA = s.linkA ∧ (s.setSynth y).linkB = s.linkB ∧ (s.setSynth y).exe = s.exe ∧
      (s.setSynth y).pending = s.pending ∧ (s.setSynth y).freeCount = s.freeCount := by
  simp [State.setSynth]

@[simp] theorem State.synthSourceChange_frame (s : State) :
    (s.synthSourceChange).por = s.por ∧ (s.synthSourceChange).txReady = s.txReady ∧ (s.synthSourceChange).monIn = s.monIn ∧
      (s.synthSourceChange).freqFrom = s.freqFrom ∧ (s.synthSourceChange).now = s.now ∧ (s.synthSourceChange).params = s.params ∧
      (s.synthSourceChange).tb = s.tb ∧ (s.synthSourceChange).ref1 = s.ref1 ∧ (s.synthSourceChange).ref2 = s.ref2 ∧
      (s.synthSourceChange).sel = s.sel ∧ (s.synthSourceChange).sched = s.sched ∧ (s.synthSourceChange).comp = s.comp ∧
      (s.synthSourceChange).key = s.key ∧ (s.synthSourceChange).bus = s.bus ∧ (s.synthSourceChange).mon = s.mon ∧
      (s.synthSourceChange).linkA = s.linkA ∧ (s.synthSourceChange).linkB = s.linkB ∧ (s.synthSourceChange).exe = s.exe ∧
      (s.synthSourceChange).pending = s.pending ∧ (s.synthSourceChange).freeCount = s.freeCount := by
  unfold State.synthSourceChange; split <;> simp

@[simp] theorem State.periodEnd_frame (s : State) (num den : Nat) :
    (s.periodEnd num den).por = s.por ∧ (s.periodEnd num den).txReady = s.txReady ∧ (s.periodEnd num den).monIn = s.monIn ∧
      (s.periodEnd num den).freqFrom = s.freqFrom ∧ (s.periodEnd num den).params = s.params ∧ (s.periodEnd num den).tb = s.tb ∧
      (s.periodEnd num den).ref1 = s.ref1 ∧ (s.periodEnd num den).ref2 = s.ref2 ∧ (s.periodEnd num den).sel = s.sel ∧
      (s.periodEnd num den).sched = s.sched ∧ (s.periodEnd num den).comp = s.comp ∧ (s.periodEnd num den).key = s.key ∧
      (s.periodEnd num den).bus = s.bus ∧ (s.periodEnd num den).mon = s.mon ∧ (s.periodEnd num den).linkA = s.linkA ∧
      (s.periodEnd num den).linkB = s.linkB ∧ (s.periodEnd num den).exe = s.exe ∧ (s.periodEnd num den).pending = s.pending ∧
      (s.periodEnd num den).freeCount = s.freeCount := by
  simp [State.periodEnd]

@[simp] theorem State.correct_frame (s : State) (p : Port) (o : Int) :
    (s.correct p o).por = s.por ∧ (s.correct p o).txReady = s.txReady ∧ (s.correct p o).monIn = s.monIn ∧
      (s.correct p o).freqFrom = s.freqFrom ∧ (s.correct p o).now = s.now ∧ (s.correct p o).params = s.params ∧
      (s.correct p o).ref1 = s.ref1 ∧ (s.correct p o).ref2 = s.ref2 ∧ (s.correct p o).sel = s.sel ∧
      (s.correct p o).synth = s.synth ∧ (s.correct p o).sched = s.sched ∧ (s.correct p o).comp = s.comp ∧
      (s.correct p o).key = s.key ∧ (s.correct p o).bus = s.bus ∧ (s.correct p o).mon = s.mon ∧
      (s.correct p o).linkA = s.linkA ∧ (s.correct p o).linkB = s.linkB ∧ (s.correct p o).exe = s.exe ∧
      (s.correct p o).pending = s.pending ∧ (s.correct p o).freeCount = s.freeCount := by
  simp only [State.correct]; repeat' split
  all_goals simp

@[simp] theorem State.enterLocked_frame (s : State) (p : Port) :
    (s.enterLocked p).por = s.por ∧ (s.enterLocked p).txReady = s.txReady ∧ (s.enterLocked p).monIn = s.monIn ∧
      (s.enterLocked p).freqFrom = s.freqFrom ∧ (s.enterLocked p).now = s.now ∧ (s.enterLocked p).params = s.params ∧
      (s.enterLocked p).ref1 = s.ref1 ∧ (s.enterLocked p).ref2 = s.ref2 ∧ (s.enterLocked p).sel = s.sel ∧
      (s.enterLocked p).synth = s.synth ∧ (s.enterLocked p).sched = s.sched ∧ (s.enterLocked p).comp = s.comp ∧
      (s.enterLocked p).key = s.key ∧ (s.enterLocked p).bus = s.bus ∧ (s.enterLocked p).mon = s.mon ∧
      (s.enterLocked p).cond = s.cond ∧ (s.enterLocked p).linkA = s.linkA ∧ (s.enterLocked p).linkB = s.linkB ∧
      (s.enterLocked p).exe = s.exe ∧ (s.enterLocked p).pending = s.pending ∧ (s.enterLocked p).freeCount = s.freeCount := by
  simp [State.enterLocked]

@[simp] theorem State.follow_frame (s : State) (old : Option Port) :
    (s.follow old).por = s.por ∧ (s.follow old).txReady = s.txReady ∧ (s.follow old).monIn = s.monIn ∧
      (s.follow old).freqFrom = s.freqFrom ∧ (s.follow old).now = s.now ∧ (s.follow old).params = s.params ∧
      (s.follow old).ref1 = s.ref1 ∧ (s.follow old).ref2 = s.ref2 ∧ (s.follow old).sel = s.sel ∧
      (s.follow old).synth = s.synth ∧ (s.follow old).sched = s.sched ∧ (s.follow old).comp = s.comp ∧
      (s.follow old).key = s.key ∧ (s.follow old).bus = s.bus ∧ (s.follow old).mon = s.mon ∧
      (s.follow old).cond = s.cond ∧ (s.follow old).linkA = s.linkA ∧ (s.follow old).linkB = s.linkB ∧
      (s.follow old).exe = s.exe ∧ (s.follow old).pending = s.pending ∧ (s.follow old).freeCount = s.freeCount := by
  unfold State.follow; repeat' split
  all_goals simp

@[simp] theorem State.abandonStep_frame (s : State) :
    (s.abandonStep).por = s.por ∧ (s.abandonStep).txReady = s.txReady ∧ (s.abandonStep).monIn = s.monIn ∧
      (s.abandonStep).freqFrom = s.freqFrom ∧ (s.abandonStep).now = s.now ∧ (s.abandonStep).params = s.params ∧
      (s.abandonStep).ref1 = s.ref1 ∧ (s.abandonStep).ref2 = s.ref2 ∧ (s.abandonStep).sel = s.sel ∧
      (s.abandonStep).synth = s.synth ∧ (s.abandonStep).sched = s.sched ∧ (s.abandonStep).comp = s.comp ∧
      (s.abandonStep).key = s.key ∧ (s.abandonStep).bus = s.bus ∧ (s.abandonStep).mon = s.mon ∧
      (s.abandonStep).cond = s.cond ∧ (s.abandonStep).linkA = s.linkA ∧ (s.abandonStep).linkB = s.linkB ∧
      (s.abandonStep).exe = s.exe ∧ (s.abandonStep).pending = s.pending ∧ (s.abandonStep).freeCount = s.freeCount := by
  simp [State.abandonStep]

@[simp] theorem State.sourceChange_frame (s : State) (x : Source) :
    (s.sourceChange x).por = s.por ∧ (s.sourceChange x).txReady = s.txReady ∧ (s.sourceChange x).monIn = s.monIn ∧
      (s.sourceChange x).freqFrom = s.freqFrom ∧ (s.sourceChange x).now = s.now ∧ (s.sourceChange x).params = s.params ∧
      (s.sourceChange x).ref1 = s.ref1 ∧ (s.sourceChange x).ref2 = s.ref2 ∧ (s.sourceChange x).sel = s.sel ∧
      (s.sourceChange x).sched = s.sched ∧ (s.sourceChange x).comp = s.comp ∧ (s.sourceChange x).key = s.key ∧
      (s.sourceChange x).bus = s.bus ∧ (s.sourceChange x).mon = s.mon ∧ (s.sourceChange x).linkA = s.linkA ∧
      (s.sourceChange x).linkB = s.linkB ∧ (s.sourceChange x).exe = s.exe ∧ (s.sourceChange x).pending = s.pending ∧
      (s.sourceChange x).freeCount = s.freeCount := by
  simp [State.sourceChange]

@[simp] theorem State.movePort_frame (s : State) (p : Port) (r : RefPort) :
    (s.movePort p r).por = s.por ∧ (s.movePort p r).txReady = s.txReady ∧ (s.movePort p r).monIn = s.monIn ∧
      (s.movePort p r).freqFrom = s.freqFrom ∧ (s.movePort p r).now = s.now ∧ (s.movePort p r).params = s.params ∧
      (s.movePort p r).tb = s.tb ∧ (s.movePort p r).sel = s.sel ∧ (s.movePort p r).synth = s.synth ∧
      (s.movePort p r).sched = s.sched ∧ (s.movePort p r).comp = s.comp ∧ (s.movePort p r).key = s.key ∧
      (s.movePort p r).bus = s.bus ∧ (s.movePort p r).mon = s.mon ∧ (s.movePort p r).linkA = s.linkA ∧
      (s.movePort p r).linkB = s.linkB ∧ (s.movePort p r).exe = s.exe ∧ (s.movePort p r).pending = s.pending ∧
      (s.movePort p r).freeCount = s.freeCount := by
  simp only [State.movePort]; split <;> simp

@[simp] theorem State.completePulse_frame (s : State) (p : Port) (u : OpenPulse) (o : Int) :
    (s.completePulse p u o).por = s.por ∧ (s.completePulse p u o).txReady = s.txReady ∧ (s.completePulse p u o).monIn = s.monIn ∧
      (s.completePulse p u o).freqFrom = s.freqFrom ∧ (s.completePulse p u o).now = s.now ∧ (s.completePulse p u o).params = s.params ∧
      (s.completePulse p u o).tb = s.tb ∧ (s.completePulse p u o).sel = s.sel ∧ (s.completePulse p u o).synth = s.synth ∧
      (s.completePulse p u o).sched = s.sched ∧ (s.completePulse p u o).comp = s.comp ∧ (s.completePulse p u o).key = s.key ∧
      (s.completePulse p u o).bus = s.bus ∧ (s.completePulse p u o).mon = s.mon ∧ (s.completePulse p u o).linkA = s.linkA ∧
      (s.completePulse p u o).linkB = s.linkB ∧ (s.completePulse p u o).exe = s.exe ∧ (s.completePulse p u o).pending = s.pending ∧
      (s.completePulse p u o).freeCount = s.freeCount := by
  simp [State.completePulse]

@[simp] theorem State.clearDisagree_frame (s : State) (s0 : State) :
    (s0.clearDisagree s).por = s.por ∧ (s0.clearDisagree s).txReady = s.txReady ∧ (s0.clearDisagree s).monIn = s.monIn ∧
      (s0.clearDisagree s).freqFrom = s.freqFrom ∧ (s0.clearDisagree s).now = s.now ∧ (s0.clearDisagree s).params = s.params ∧
      (s0.clearDisagree s).tb = s.tb ∧ (s0.clearDisagree s).ref1 = s.ref1 ∧ (s0.clearDisagree s).ref2 = s.ref2 ∧
      (s0.clearDisagree s).synth = s.synth ∧ (s0.clearDisagree s).sched = s.sched ∧ (s0.clearDisagree s).comp = s.comp ∧
      (s0.clearDisagree s).key = s.key ∧ (s0.clearDisagree s).bus = s.bus ∧ (s0.clearDisagree s).mon = s.mon ∧
      (s0.clearDisagree s).cond = s.cond ∧ (s0.clearDisagree s).linkA = s.linkA ∧ (s0.clearDisagree s).linkB = s.linkB ∧
      (s0.clearDisagree s).exe = s.exe ∧ (s0.clearDisagree s).pending = s.pending ∧ (s0.clearDisagree s).freeCount = s.freeCount := by
  unfold State.clearDisagree; split <;> simp

@[simp] theorem State.select_frame (s : State) (x : Option Port) :
    (s.select x).por = s.por ∧ (s.select x).txReady = s.txReady ∧ (s.select x).monIn = s.monIn ∧
      (s.select x).freqFrom = s.freqFrom ∧ (s.select x).now = s.now ∧ (s.select x).params = s.params ∧
      (s.select x).ref1 = s.ref1 ∧ (s.select x).ref2 = s.ref2 ∧ (s.select x).synth = s.synth ∧
      (s.select x).sched = s.sched ∧ (s.select x).comp = s.comp ∧ (s.select x).key = s.key ∧
      (s.select x).bus = s.bus ∧ (s.select x).mon = s.mon ∧ (s.select x).linkA = s.linkA ∧
      (s.select x).linkB = s.linkB ∧ (s.select x).exe = s.exe ∧ (s.select x).pending = s.pending ∧
      (s.select x).freeCount = s.freeCount := by
  simp [State.select]

@[simp] theorem State.portsMoved_frame (s : State) (s0 : State) :
    (s0.portsMoved s).por = s.por ∧ (s0.portsMoved s).txReady = s.txReady ∧ (s0.portsMoved s).monIn = s.monIn ∧
      (s0.portsMoved s).freqFrom = s.freqFrom ∧ (s0.portsMoved s).now = s.now ∧ (s0.portsMoved s).params = s.params ∧
      (s0.portsMoved s).ref1 = s.ref1 ∧ (s0.portsMoved s).ref2 = s.ref2 ∧ (s0.portsMoved s).synth = s.synth ∧
      (s0.portsMoved s).sched = s.sched ∧ (s0.portsMoved s).comp = s.comp ∧ (s0.portsMoved s).key = s.key ∧
      (s0.portsMoved s).bus = s.bus ∧ (s0.portsMoved s).mon = s.mon ∧ (s0.portsMoved s).linkA = s.linkA ∧
      (s0.portsMoved s).linkB = s.linkB ∧ (s0.portsMoved s).exe = s.exe ∧ (s0.portsMoved s).pending = s.pending ∧
      (s0.portsMoved s).freeCount = s.freeCount := by
  simp [State.portsMoved]

@[simp] theorem State.judgeAgreement_frame (s : State) :
    (s.judgeAgreement).por = s.por ∧ (s.judgeAgreement).txReady = s.txReady ∧ (s.judgeAgreement).monIn = s.monIn ∧
      (s.judgeAgreement).freqFrom = s.freqFrom ∧ (s.judgeAgreement).now = s.now ∧ (s.judgeAgreement).params = s.params ∧
      (s.judgeAgreement).tb = s.tb ∧ (s.judgeAgreement).ref1 = s.ref1 ∧ (s.judgeAgreement).ref2 = s.ref2 ∧
      (s.judgeAgreement).synth = s.synth ∧ (s.judgeAgreement).sched = s.sched ∧ (s.judgeAgreement).comp = s.comp ∧
      (s.judgeAgreement).key = s.key ∧ (s.judgeAgreement).bus = s.bus ∧ (s.judgeAgreement).mon = s.mon ∧
      (s.judgeAgreement).cond = s.cond ∧ (s.judgeAgreement).linkA = s.linkA ∧ (s.judgeAgreement).linkB = s.linkB ∧
      (s.judgeAgreement).exe = s.exe ∧ (s.judgeAgreement).pending = s.pending ∧ (s.judgeAgreement).freeCount = s.freeCount := by
  unfold State.judgeAgreement; repeat' split
  all_goals simp

@[simp] theorem State.leapCheck_frame (s : State) :
    (s.leapCheck).por = s.por ∧ (s.leapCheck).txReady = s.txReady ∧ (s.leapCheck).monIn = s.monIn ∧
      (s.leapCheck).freqFrom = s.freqFrom ∧ (s.leapCheck).now = s.now ∧ (s.leapCheck).params = s.params ∧
      (s.leapCheck).tb = s.tb ∧ (s.leapCheck).sel = s.sel ∧ (s.leapCheck).synth = s.synth ∧
      (s.leapCheck).sched = s.sched ∧ (s.leapCheck).comp = s.comp ∧ (s.leapCheck).key = s.key ∧
      (s.leapCheck).bus = s.bus ∧ (s.leapCheck).mon = s.mon ∧ (s.leapCheck).linkA = s.linkA ∧
      (s.leapCheck).linkB = s.linkB ∧ (s.leapCheck).exe = s.exe ∧ (s.leapCheck).pending = s.pending ∧
      (s.leapCheck).freeCount = s.freeCount := by
  simp [State.leapCheck]

@[simp] theorem State.scheduleChanged_frame (s : State) :
    (s.scheduleChanged).por = s.por ∧ (s.scheduleChanged).txReady = s.txReady ∧ (s.scheduleChanged).monIn = s.monIn ∧
      (s.scheduleChanged).freqFrom = s.freqFrom ∧ (s.scheduleChanged).now = s.now ∧ (s.scheduleChanged).params = s.params ∧
      (s.scheduleChanged).tb = s.tb ∧ (s.scheduleChanged).ref1 = s.ref1 ∧ (s.scheduleChanged).ref2 = s.ref2 ∧
      (s.scheduleChanged).sel = s.sel ∧ (s.scheduleChanged).synth = s.synth ∧ (s.scheduleChanged).comp = s.comp ∧
      (s.scheduleChanged).key = s.key ∧ (s.scheduleChanged).bus = s.bus ∧ (s.scheduleChanged).mon = s.mon ∧
      (s.scheduleChanged).linkA = s.linkA ∧ (s.scheduleChanged).linkB = s.linkB ∧ (s.scheduleChanged).exe = s.exe ∧
      (s.scheduleChanged).pending = s.pending ∧ (s.scheduleChanged).freeCount = s.freeCount := by
  simp [State.scheduleChanged]

@[simp] theorem State.insertChange_frame (s : State) (x : Entry) :
    (s.insertChange x).por = s.por ∧ (s.insertChange x).txReady = s.txReady ∧ (s.insertChange x).monIn = s.monIn ∧
      (s.insertChange x).freqFrom = s.freqFrom ∧ (s.insertChange x).now = s.now ∧ (s.insertChange x).params = s.params ∧
      (s.insertChange x).tb = s.tb ∧ (s.insertChange x).ref1 = s.ref1 ∧ (s.insertChange x).ref2 = s.ref2 ∧
      (s.insertChange x).sel = s.sel ∧ (s.insertChange x).synth = s.synth ∧ (s.insertChange x).comp = s.comp ∧
      (s.insertChange x).key = s.key ∧ (s.insertChange x).bus = s.bus ∧ (s.insertChange x).mon = s.mon ∧
      (s.insertChange x).linkA = s.linkA ∧ (s.insertChange x).linkB = s.linkB ∧ (s.insertChange x).exe = s.exe ∧
      (s.insertChange x).pending = s.pending ∧ (s.insertChange x).freeCount = s.freeCount := by
  simp [State.insertChange]

@[simp] theorem State.withdraw_frame (s : State) (l : Link) (x : Entry) :
    (s.withdraw l x).por = s.por ∧ (s.withdraw l x).txReady = s.txReady ∧ (s.withdraw l x).monIn = s.monIn ∧
      (s.withdraw l x).freqFrom = s.freqFrom ∧ (s.withdraw l x).now = s.now ∧ (s.withdraw l x).params = s.params ∧
      (s.withdraw l x).tb = s.tb ∧ (s.withdraw l x).ref1 = s.ref1 ∧ (s.withdraw l x).ref2 = s.ref2 ∧
      (s.withdraw l x).sel = s.sel ∧ (s.withdraw l x).synth = s.synth ∧ (s.withdraw l x).comp = s.comp ∧
      (s.withdraw l x).key = s.key ∧ (s.withdraw l x).bus = s.bus ∧ (s.withdraw l x).mon = s.mon ∧
      (s.withdraw l x).linkA = s.linkA ∧ (s.withdraw l x).linkB = s.linkB ∧ (s.withdraw l x).exe = s.exe ∧
      (s.withdraw l x).pending = s.pending ∧ (s.withdraw l x).freeCount = s.freeCount := by
  simp [State.withdraw]

@[simp] theorem State.processSchedule_frame (s : State) (f : Nat) :
    (s.processSchedule f).por = s.por ∧ (s.processSchedule f).txReady = s.txReady ∧ (s.processSchedule f).monIn = s.monIn ∧
      (s.processSchedule f).freqFrom = s.freqFrom ∧ (s.processSchedule f).now = s.now ∧ (s.processSchedule f).params = s.params ∧
      (s.processSchedule f).tb = s.tb ∧ (s.processSchedule f).ref1 = s.ref1 ∧ (s.processSchedule f).ref2 = s.ref2 ∧
      (s.processSchedule f).sel = s.sel ∧ (s.processSchedule f).synth = s.synth ∧ (s.processSchedule f).comp = s.comp ∧
      (s.processSchedule f).bus = s.bus ∧ (s.processSchedule f).mon = s.mon ∧ (s.processSchedule f).linkA = s.linkA ∧
      (s.processSchedule f).linkB = s.linkB ∧ (s.processSchedule f).exe = s.exe ∧ (s.processSchedule f).pending = s.pending ∧
      (s.processSchedule f).freeCount = s.freeCount := by
  simp only [State.processSchedule]; split <;> simp

@[simp] theorem State.writeZone_frame (s : State) (i : Nat) (q : Int) :
    (s.writeZone i q).por = s.por ∧ (s.writeZone i q).txReady = s.txReady ∧ (s.writeZone i q).monIn = s.monIn ∧
      (s.writeZone i q).freqFrom = s.freqFrom ∧ (s.writeZone i q).now = s.now ∧ (s.writeZone i q).params = s.params ∧
      (s.writeZone i q).tb = s.tb ∧ (s.writeZone i q).ref1 = s.ref1 ∧ (s.writeZone i q).ref2 = s.ref2 ∧
      (s.writeZone i q).sel = s.sel ∧ (s.writeZone i q).synth = s.synth ∧ (s.writeZone i q).comp = s.comp ∧
      (s.writeZone i q).key = s.key ∧ (s.writeZone i q).bus = s.bus ∧ (s.writeZone i q).mon = s.mon ∧
      (s.writeZone i q).linkA = s.linkA ∧ (s.writeZone i q).linkB = s.linkB ∧ (s.writeZone i q).exe = s.exe ∧
      (s.writeZone i q).pending = s.pending ∧ (s.writeZone i q).freeCount = s.freeCount := by
  unfold State.writeZone; split <;> simp

@[simp] theorem State.handOver_frame (s : State) (f : Nat) :
    (s.handOver f).por = s.por ∧ (s.handOver f).txReady = s.txReady ∧ (s.handOver f).monIn = s.monIn ∧
      (s.handOver f).freqFrom = s.freqFrom ∧ (s.handOver f).now = s.now ∧ (s.handOver f).params = s.params ∧
      (s.handOver f).ref1 = s.ref1 ∧ (s.handOver f).ref2 = s.ref2 ∧ (s.handOver f).sel = s.sel ∧
      (s.handOver f).synth = s.synth ∧ (s.handOver f).sched = s.sched ∧ (s.handOver f).key = s.key ∧
      (s.handOver f).bus = s.bus ∧ (s.handOver f).mon = s.mon ∧ (s.handOver f).cond = s.cond ∧
      (s.handOver f).linkA = s.linkA ∧ (s.handOver f).linkB = s.linkB ∧ (s.handOver f).exe = s.exe ∧
      (s.handOver f).pending = s.pending ∧ (s.handOver f).freeCount = s.freeCount := by
  simp [State.handOver]

@[simp] theorem State.changeMode_frame (s : State) (m : Mode) :
    (s.changeMode m).por = s.por ∧ (s.changeMode m).txReady = s.txReady ∧ (s.changeMode m).monIn = s.monIn ∧
      (s.changeMode m).freqFrom = s.freqFrom ∧ (s.changeMode m).now = s.now ∧ (s.changeMode m).params = s.params ∧
      (s.changeMode m).ref1 = s.ref1 ∧ (s.changeMode m).ref2 = s.ref2 ∧ (s.changeMode m).sel = s.sel ∧
      (s.changeMode m).synth = s.synth ∧ (s.changeMode m).sched = s.sched ∧ (s.changeMode m).comp = s.comp ∧
      (s.changeMode m).bus = s.bus ∧ (s.changeMode m).linkA = s.linkA ∧ (s.changeMode m).linkB = s.linkB ∧
      (s.changeMode m).exe = s.exe ∧ (s.changeMode m).pending = s.pending ∧ (s.changeMode m).freeCount = s.freeCount := by
  simp only [State.changeMode]; repeat' split
  all_goals simp

@[simp] theorem State.setPendingMode_frame (s : State) (m : Mode) :
    (s.setPendingMode m).por = s.por ∧ (s.setPendingMode m).txReady = s.txReady ∧ (s.setPendingMode m).monIn = s.monIn ∧
      (s.setPendingMode m).freqFrom = s.freqFrom ∧ (s.setPendingMode m).now = s.now ∧ (s.setPendingMode m).params = s.params ∧
      (s.setPendingMode m).ref1 = s.ref1 ∧ (s.setPendingMode m).ref2 = s.ref2 ∧ (s.setPendingMode m).sel = s.sel ∧
      (s.setPendingMode m).synth = s.synth ∧ (s.setPendingMode m).sched = s.sched ∧ (s.setPendingMode m).comp = s.comp ∧
      (s.setPendingMode m).bus = s.bus ∧ (s.setPendingMode m).mon = s.mon ∧ (s.setPendingMode m).cond = s.cond ∧
      (s.setPendingMode m).linkA = s.linkA ∧ (s.setPendingMode m).linkB = s.linkB ∧ (s.setPendingMode m).exe = s.exe ∧
      (s.setPendingMode m).pending = s.pending ∧ (s.setPendingMode m).freeCount = s.freeCount := by
  simp only [State.setPendingMode]; split <;> simp

@[simp] theorem State.kill_frame (s : State) :
    (s.kill).por = s.por ∧ (s.kill).txReady = s.txReady ∧ (s.kill).monIn = s.monIn ∧
      (s.kill).freqFrom = s.freqFrom ∧ (s.kill).now = s.now ∧ (s.kill).params = s.params ∧
      (s.kill).ref1 = s.ref1 ∧ (s.kill).ref2 = s.ref2 ∧ (s.kill).sel = s.sel ∧
      (s.kill).synth = s.synth ∧ (s.kill).sched = s.sched ∧ (s.kill).comp = s.comp ∧
      (s.kill).bus = s.bus ∧ (s.kill).linkA = s.linkA ∧ (s.kill).linkB = s.linkB ∧
      (s.kill).exe = s.exe ∧ (s.kill).pending = s.pending ∧ (s.kill).freeCount = s.freeCount := by
  simp [State.kill]

@[simp] theorem State.maintenanceDue_frame (s : State) :
    (s.maintenanceDue).por = s.por ∧ (s.maintenanceDue).txReady = s.txReady ∧ (s.maintenanceDue).monIn = s.monIn ∧
      (s.maintenanceDue).freqFrom = s.freqFrom ∧ (s.maintenanceDue).now = s.now ∧ (s.maintenanceDue).params = s.params ∧
      (s.maintenanceDue).tb = s.tb ∧ (s.maintenanceDue).ref1 = s.ref1 ∧ (s.maintenanceDue).ref2 = s.ref2 ∧
      (s.maintenanceDue).sel = s.sel ∧ (s.maintenanceDue).synth = s.synth ∧ (s.maintenanceDue).sched = s.sched ∧
      (s.maintenanceDue).comp = s.comp ∧ (s.maintenanceDue).bus = s.bus ∧ (s.maintenanceDue).mon = s.mon ∧
      (s.maintenanceDue).cond = s.cond ∧ (s.maintenanceDue).linkA = s.linkA ∧ (s.maintenanceDue).linkB = s.linkB ∧
      (s.maintenanceDue).exe = s.exe ∧ (s.maintenanceDue).pending = s.pending ∧ (s.maintenanceDue).freeCount = s.freeCount := by
  unfold State.maintenanceDue; split <;> simp

@[simp] theorem State.boundaryPending_frame (s : State) (m : Mode) :
    (s.boundaryPending m).por = s.por ∧ (s.boundaryPending m).txReady = s.txReady ∧ (s.boundaryPending m).monIn = s.monIn ∧
      (s.boundaryPending m).freqFrom = s.freqFrom ∧ (s.boundaryPending m).now = s.now ∧ (s.boundaryPending m).params = s.params ∧
      (s.boundaryPending m).ref1 = s.ref1 ∧ (s.boundaryPending m).ref2 = s.ref2 ∧ (s.boundaryPending m).sel = s.sel ∧
      (s.boundaryPending m).synth = s.synth ∧ (s.boundaryPending m).sched = s.sched ∧ (s.boundaryPending m).comp = s.comp ∧
      (s.boundaryPending m).bus = s.bus ∧ (s.boundaryPending m).linkA = s.linkA ∧ (s.boundaryPending m).linkB = s.linkB ∧
      (s.boundaryPending m).exe = s.exe ∧ (s.boundaryPending m).pending = s.pending ∧ (s.boundaryPending m).freeCount = s.freeCount := by
  simp only [State.boundaryPending]; split <;> simp

@[simp] theorem State.boundaryOffAir_frame (s : State) (r : OffReq) :
    (s.boundaryOffAir r).por = s.por ∧ (s.boundaryOffAir r).txReady = s.txReady ∧ (s.boundaryOffAir r).monIn = s.monIn ∧
      (s.boundaryOffAir r).freqFrom = s.freqFrom ∧ (s.boundaryOffAir r).now = s.now ∧ (s.boundaryOffAir r).params = s.params ∧
      (s.boundaryOffAir r).ref1 = s.ref1 ∧ (s.boundaryOffAir r).ref2 = s.ref2 ∧ (s.boundaryOffAir r).sel = s.sel ∧
      (s.boundaryOffAir r).synth = s.synth ∧ (s.boundaryOffAir r).sched = s.sched ∧ (s.boundaryOffAir r).comp = s.comp ∧
      (s.boundaryOffAir r).bus = s.bus ∧ (s.boundaryOffAir r).linkA = s.linkA ∧ (s.boundaryOffAir r).linkB = s.linkB ∧
      (s.boundaryOffAir r).exe = s.exe ∧ (s.boundaryOffAir r).pending = s.pending ∧ (s.boundaryOffAir r).freeCount = s.freeCount := by
  simp only [State.boundaryOffAir]; split <;> simp

@[simp] theorem State.boundaryResume_frame (s : State) (m : Maint) :
    (s.boundaryResume m).por = s.por ∧ (s.boundaryResume m).txReady = s.txReady ∧ (s.boundaryResume m).monIn = s.monIn ∧
      (s.boundaryResume m).freqFrom = s.freqFrom ∧ (s.boundaryResume m).now = s.now ∧ (s.boundaryResume m).params = s.params ∧
      (s.boundaryResume m).ref1 = s.ref1 ∧ (s.boundaryResume m).ref2 = s.ref2 ∧ (s.boundaryResume m).sel = s.sel ∧
      (s.boundaryResume m).synth = s.synth ∧ (s.boundaryResume m).sched = s.sched ∧ (s.boundaryResume m).comp = s.comp ∧
      (s.boundaryResume m).bus = s.bus ∧ (s.boundaryResume m).linkA = s.linkA ∧ (s.boundaryResume m).linkB = s.linkB ∧
      (s.boundaryResume m).exe = s.exe ∧ (s.boundaryResume m).pending = s.pending ∧ (s.boundaryResume m).freeCount = s.freeCount := by
  unfold State.boundaryResume; repeat' split
  all_goals simp

@[simp] theorem State.boundaryMode_frame (s : State) :
    (s.boundaryMode).por = s.por ∧ (s.boundaryMode).txReady = s.txReady ∧ (s.boundaryMode).monIn = s.monIn ∧
      (s.boundaryMode).freqFrom = s.freqFrom ∧ (s.boundaryMode).now = s.now ∧ (s.boundaryMode).params = s.params ∧
      (s.boundaryMode).ref1 = s.ref1 ∧ (s.boundaryMode).ref2 = s.ref2 ∧ (s.boundaryMode).sel = s.sel ∧
      (s.boundaryMode).synth = s.synth ∧ (s.boundaryMode).sched = s.sched ∧ (s.boundaryMode).comp = s.comp ∧
      (s.boundaryMode).bus = s.bus ∧ (s.boundaryMode).linkA = s.linkA ∧ (s.boundaryMode).linkB = s.linkB ∧
      (s.boundaryMode).exe = s.exe ∧ (s.boundaryMode).pending = s.pending ∧ (s.boundaryMode).freeCount = s.freeCount := by
  unfold State.boundaryMode; split <;> simp

@[simp] theorem State.takeFrame_frame (s : State) :
    (s.takeFrame).por = s.por ∧ (s.takeFrame).txReady = s.txReady ∧ (s.takeFrame).monIn = s.monIn ∧
      (s.takeFrame).freqFrom = s.freqFrom ∧ (s.takeFrame).now = s.now ∧ (s.takeFrame).params = s.params ∧
      (s.takeFrame).tb = s.tb ∧ (s.takeFrame).ref1 = s.ref1 ∧ (s.takeFrame).ref2 = s.ref2 ∧
      (s.takeFrame).sel = s.sel ∧ (s.takeFrame).synth = s.synth ∧ (s.takeFrame).sched = s.sched ∧
      (s.takeFrame).bus = s.bus ∧ (s.takeFrame).mon = s.mon ∧ (s.takeFrame).linkA = s.linkA ∧
      (s.takeFrame).linkB = s.linkB ∧ (s.takeFrame).exe = s.exe ∧ (s.takeFrame).pending = s.pending ∧
      (s.takeFrame).freeCount = s.freeCount := by
  simp only [State.takeFrame]; repeat' split
  all_goals simp

@[simp] theorem State.keyerBoundary_frame (s : State) :
    (s.keyerBoundary).por = s.por ∧ (s.keyerBoundary).txReady = s.txReady ∧ (s.keyerBoundary).monIn = s.monIn ∧
      (s.keyerBoundary).freqFrom = s.freqFrom ∧ (s.keyerBoundary).now = s.now ∧ (s.keyerBoundary).params = s.params ∧
      (s.keyerBoundary).ref1 = s.ref1 ∧ (s.keyerBoundary).ref2 = s.ref2 ∧ (s.keyerBoundary).sel = s.sel ∧
      (s.keyerBoundary).synth = s.synth ∧ (s.keyerBoundary).sched = s.sched ∧ (s.keyerBoundary).bus = s.bus ∧
      (s.keyerBoundary).linkA = s.linkA ∧ (s.keyerBoundary).linkB = s.linkB ∧ (s.keyerBoundary).exe = s.exe ∧
      (s.keyerBoundary).pending = s.pending ∧ (s.keyerBoundary).freeCount = s.freeCount := by
  simp [State.keyerBoundary]

@[simp] theorem State.loadLevels_frame (s : State) :
    (s.loadLevels).por = s.por ∧ (s.loadLevels).txReady = s.txReady ∧ (s.loadLevels).monIn = s.monIn ∧
      (s.loadLevels).freqFrom = s.freqFrom ∧ (s.loadLevels).now = s.now ∧ (s.loadLevels).params = s.params ∧
      (s.loadLevels).tb = s.tb ∧ (s.loadLevels).ref1 = s.ref1 ∧ (s.loadLevels).ref2 = s.ref2 ∧
      (s.loadLevels).sel = s.sel ∧ (s.loadLevels).synth = s.synth ∧ (s.loadLevels).sched = s.sched ∧
      (s.loadLevels).comp = s.comp ∧ (s.loadLevels).bus = s.bus ∧ (s.loadLevels).mon = s.mon ∧
      (s.loadLevels).cond = s.cond ∧ (s.loadLevels).linkA = s.linkA ∧ (s.loadLevels).linkB = s.linkB ∧
      (s.loadLevels).exe = s.exe ∧ (s.loadLevels).pending = s.pending ∧ (s.loadLevels).freeCount = s.freeCount := by
  simp [State.loadLevels]

@[simp] theorem State.beginSignal_frame (s : State) (b : Bool) :
    (s.beginSignal b).por = s.por ∧ (s.beginSignal b).txReady = s.txReady ∧ (s.beginSignal b).monIn = s.monIn ∧
      (s.beginSignal b).freqFrom = s.freqFrom ∧ (s.beginSignal b).now = s.now ∧ (s.beginSignal b).params = s.params ∧
      (s.beginSignal b).tb = s.tb ∧ (s.beginSignal b).ref1 = s.ref1 ∧ (s.beginSignal b).ref2 = s.ref2 ∧
      (s.beginSignal b).sel = s.sel ∧ (s.beginSignal b).synth = s.synth ∧ (s.beginSignal b).sched = s.sched ∧
      (s.beginSignal b).comp = s.comp ∧ (s.beginSignal b).bus = s.bus ∧ (s.beginSignal b).mon = s.mon ∧
      (s.beginSignal b).cond = s.cond ∧ (s.beginSignal b).linkA = s.linkA ∧ (s.beginSignal b).linkB = s.linkB ∧
      (s.beginSignal b).exe = s.exe ∧ (s.beginSignal b).pending = s.pending ∧ (s.beginSignal b).freeCount = s.freeCount := by
  simp [State.beginSignal]

@[simp] theorem State.tick_frame (s : State) :
    (s.tick).por = s.por ∧ (s.tick).txReady = s.txReady ∧ (s.tick).monIn = s.monIn ∧
      (s.tick).freqFrom = s.freqFrom ∧ (s.tick).now = s.now ∧ (s.tick).params = s.params ∧
      (s.tick).tb = s.tb ∧ (s.tick).ref1 = s.ref1 ∧ (s.tick).ref2 = s.ref2 ∧
      (s.tick).sel = s.sel ∧ (s.tick).synth = s.synth ∧ (s.tick).sched = s.sched ∧
      (s.tick).comp = s.comp ∧ (s.tick).key = s.key ∧ (s.tick).bus = s.bus ∧
      (s.tick).mon = s.mon ∧ (s.tick).linkA = s.linkA ∧ (s.tick).linkB = s.linkB ∧
      (s.tick).exe = s.exe ∧ (s.tick).pending = s.pending ∧ (s.tick).freeCount = s.freeCount := by
  simp [State.tick]

@[simp] theorem State.minuteTick_frame (s : State) :
    (s.minuteTick).por = s.por ∧ (s.minuteTick).txReady = s.txReady ∧ (s.minuteTick).monIn = s.monIn ∧
      (s.minuteTick).freqFrom = s.freqFrom ∧ (s.minuteTick).now = s.now ∧ (s.minuteTick).params = s.params ∧
      (s.minuteTick).tb = s.tb ∧ (s.minuteTick).ref1 = s.ref1 ∧ (s.minuteTick).ref2 = s.ref2 ∧
      (s.minuteTick).sel = s.sel ∧ (s.minuteTick).synth = s.synth ∧ (s.minuteTick).sched = s.sched ∧
      (s.minuteTick).comp = s.comp ∧ (s.minuteTick).key = s.key ∧ (s.minuteTick).bus = s.bus ∧
      (s.minuteTick).mon = s.mon ∧ (s.minuteTick).linkA = s.linkA ∧ (s.minuteTick).linkB = s.linkB ∧
      (s.minuteTick).exe = s.exe ∧ (s.minuteTick).pending = s.pending ∧ (s.minuteTick).freeCount = s.freeCount := by
  unfold State.minuteTick; extract_lets; split <;> simp

@[simp] theorem State.minuteBoundary_frame (s : State) :
    (s.minuteBoundary).por = s.por ∧ (s.minuteBoundary).txReady = s.txReady ∧ (s.minuteBoundary).monIn = s.monIn ∧
      (s.minuteBoundary).freqFrom = s.freqFrom ∧ (s.minuteBoundary).now = s.now ∧ (s.minuteBoundary).params = s.params ∧
      (s.minuteBoundary).ref1 = s.ref1 ∧ (s.minuteBoundary).ref2 = s.ref2 ∧ (s.minuteBoundary).sel = s.sel ∧
      (s.minuteBoundary).synth = s.synth ∧ (s.minuteBoundary).sched = s.sched ∧ (s.minuteBoundary).bus = s.bus ∧
      (s.minuteBoundary).linkA = s.linkA ∧ (s.minuteBoundary).linkB = s.linkB ∧ (s.minuteBoundary).exe = s.exe ∧
      (s.minuteBoundary).pending = s.pending ∧ (s.minuteBoundary).freeCount = s.freeCount := by
  simp [State.minuteBoundary]

@[simp] theorem State.composition_frame (s : State) :
    (s.composition).por = s.por ∧ (s.composition).txReady = s.txReady ∧ (s.composition).monIn = s.monIn ∧
      (s.composition).freqFrom = s.freqFrom ∧ (s.composition).now = s.now ∧ (s.composition).params = s.params ∧
      (s.composition).sel = s.sel ∧ (s.composition).synth = s.synth ∧ (s.composition).bus = s.bus ∧
      (s.composition).mon = s.mon ∧ (s.composition).linkA = s.linkA ∧ (s.composition).linkB = s.linkB ∧
      (s.composition).exe = s.exe ∧ (s.composition).pending = s.pending ∧ (s.composition).freeCount = s.freeCount := by
  simp [State.composition]

@[simp] theorem State.correctOpen_frame (s : State) (p : Port) :
    (s.correctOpen p).por = s.por ∧ (s.correctOpen p).txReady = s.txReady ∧ (s.correctOpen p).monIn = s.monIn ∧
      (s.correctOpen p).freqFrom = s.freqFrom ∧ (s.correctOpen p).now = s.now ∧ (s.correctOpen p).params = s.params ∧
      (s.correctOpen p).ref1 = s.ref1 ∧ (s.correctOpen p).ref2 = s.ref2 ∧ (s.correctOpen p).sel = s.sel ∧
      (s.correctOpen p).synth = s.synth ∧ (s.correctOpen p).sched = s.sched ∧ (s.correctOpen p).comp = s.comp ∧
      (s.correctOpen p).key = s.key ∧ (s.correctOpen p).bus = s.bus ∧ (s.correctOpen p).mon = s.mon ∧
      (s.correctOpen p).linkA = s.linkA ∧ (s.correctOpen p).linkB = s.linkB ∧ (s.correctOpen p).exe = s.exe ∧
      (s.correctOpen p).pending = s.pending ∧ (s.correctOpen p).freeCount = s.freeCount := by
  refine foldl_keeps (P := fun t : State => (t).por = s.por ∧ (t).txReady = s.txReady ∧ (t).monIn = s.monIn ∧
      (t).freqFrom = s.freqFrom ∧ (t).now = s.now ∧ (t).params = s.params ∧
      (t).ref1 = s.ref1 ∧ (t).ref2 = s.ref2 ∧ (t).sel = s.sel ∧
      (t).synth = s.synth ∧ (t).sched = s.sched ∧ (t).comp = s.comp ∧
      (t).key = s.key ∧ (t).bus = s.bus ∧ (t).mon = s.mon ∧
      (t).linkA = s.linkA ∧ (t).linkB = s.linkB ∧ (t).exe = s.exe ∧
      (t).pending = s.pending ∧ (t).freeCount = s.freeCount) ?_ _ _ ?_
  · intro t u h; simpa using h
  · simp

@[simp] theorem State.completeOpen_frame (s : State) (p : Port) :
    (s.completeOpen p).por = s.por ∧ (s.completeOpen p).txReady = s.txReady ∧ (s.completeOpen p).monIn = s.monIn ∧
      (s.completeOpen p).freqFrom = s.freqFrom ∧ (s.completeOpen p).now = s.now ∧ (s.completeOpen p).params = s.params ∧
      (s.completeOpen p).tb = s.tb ∧ (s.completeOpen p).sel = s.sel ∧ (s.completeOpen p).synth = s.synth ∧
      (s.completeOpen p).sched = s.sched ∧ (s.completeOpen p).comp = s.comp ∧ (s.completeOpen p).key = s.key ∧
      (s.completeOpen p).bus = s.bus ∧ (s.completeOpen p).mon = s.mon ∧ (s.completeOpen p).linkA = s.linkA ∧
      (s.completeOpen p).linkB = s.linkB ∧ (s.completeOpen p).exe = s.exe ∧ (s.completeOpen p).pending = s.pending ∧
      (s.completeOpen p).freeCount = s.freeCount := by
  refine foldl_keeps (P := fun t : State => (t).por = s.por ∧ (t).txReady = s.txReady ∧ (t).monIn = s.monIn ∧
      (t).freqFrom = s.freqFrom ∧ (t).now = s.now ∧ (t).params = s.params ∧
      (t).tb = s.tb ∧ (t).sel = s.sel ∧ (t).synth = s.synth ∧
      (t).sched = s.sched ∧ (t).comp = s.comp ∧ (t).key = s.key ∧
      (t).bus = s.bus ∧ (t).mon = s.mon ∧ (t).linkA = s.linkA ∧
      (t).linkB = s.linkB ∧ (t).exe = s.exe ∧ (t).pending = s.pending ∧
      (t).freeCount = s.freeCount) ?_ _ _ ?_
  · intro t u h; simpa using h
  · simp

@[simp] theorem State.slewOnEntry_frame (s : State) (s0 : State) (known : Port → Bool) :
    (s0.slewOnEntry s known).por = s.por ∧ (s0.slewOnEntry s known).txReady = s.txReady ∧ (s0.slewOnEntry s known).monIn = s.monIn ∧
      (s0.slewOnEntry s known).freqFrom = s.freqFrom ∧ (s0.slewOnEntry s known).now = s.now ∧ (s0.slewOnEntry s known).params = s.params ∧
      (s0.slewOnEntry s known).ref1 = s.ref1 ∧ (s0.slewOnEntry s known).ref2 = s.ref2 ∧ (s0.slewOnEntry s known).sel = s.sel ∧
      (s0.slewOnEntry s known).synth = s.synth ∧ (s0.slewOnEntry s known).sched = s.sched ∧ (s0.slewOnEntry s known).comp = s.comp ∧
      (s0.slewOnEntry s known).key = s.key ∧ (s0.slewOnEntry s known).bus = s.bus ∧ (s0.slewOnEntry s known).mon = s.mon ∧
      (s0.slewOnEntry s known).linkA = s.linkA ∧ (s0.slewOnEntry s known).linkB = s.linkB ∧ (s0.slewOnEntry s known).exe = s.exe ∧
      (s0.slewOnEntry s known).pending = s.pending ∧ (s0.slewOnEntry s known).freeCount = s.freeCount := by
  simp only [State.slewOnEntry]; repeat' split
  all_goals simp

@[simp] theorem State.pulsesAtEdge_frame (s : State) (k : EdgeKind) :
    (s.pulsesAtEdge k).por = s.por ∧ (s.pulsesAtEdge k).txReady = s.txReady ∧ (s.pulsesAtEdge k).monIn = s.monIn ∧
      (s.pulsesAtEdge k).freqFrom = s.freqFrom ∧ (s.pulsesAtEdge k).now = s.now ∧ (s.pulsesAtEdge k).params = s.params ∧
      (s.pulsesAtEdge k).synth = s.synth ∧ (s.pulsesAtEdge k).sched = s.sched ∧ (s.pulsesAtEdge k).comp = s.comp ∧
      (s.pulsesAtEdge k).key = s.key ∧ (s.pulsesAtEdge k).bus = s.bus ∧ (s.pulsesAtEdge k).mon = s.mon ∧
      (s.pulsesAtEdge k).linkA = s.linkA ∧ (s.pulsesAtEdge k).linkB = s.linkB ∧ (s.pulsesAtEdge k).exe = s.exe ∧
      (s.pulsesAtEdge k).pending = s.pending ∧ (s.pulsesAtEdge k).freeCount = s.freeCount := by
  simp only [State.pulsesAtEdge]; repeat' split
  all_goals simp

@[simp] theorem State.markBegun_frame (s : State) :
    (s.markBegun).por = s.por ∧ (s.markBegun).txReady = s.txReady ∧ (s.markBegun).monIn = s.monIn ∧
      (s.markBegun).freqFrom = s.freqFrom ∧ (s.markBegun).now = s.now ∧ (s.markBegun).params = s.params ∧
      (s.markBegun).ref1 = s.ref1 ∧ (s.markBegun).ref2 = s.ref2 ∧ (s.markBegun).sel = s.sel ∧
      (s.markBegun).synth = s.synth ∧ (s.markBegun).sched = s.sched ∧ (s.markBegun).comp = s.comp ∧
      (s.markBegun).key = s.key ∧ (s.markBegun).bus = s.bus ∧ (s.markBegun).mon = s.mon ∧
      (s.markBegun).cond = s.cond ∧ (s.markBegun).linkA = s.linkA ∧ (s.markBegun).linkB = s.linkB ∧
      (s.markBegun).exe = s.exe ∧ (s.markBegun).pending = s.pending ∧ (s.markBegun).freeCount = s.freeCount := by
  simp [State.markBegun]

@[simp] theorem State.edgeEffects_frame (s : State) (k : EdgeKind) :
    (s.edgeEffects k).por = s.por ∧ (s.edgeEffects k).txReady = s.txReady ∧ (s.edgeEffects k).monIn = s.monIn ∧
      (s.edgeEffects k).freqFrom = s.freqFrom ∧ (s.edgeEffects k).now = s.now ∧ (s.edgeEffects k).params = s.params ∧
      (s.edgeEffects k).synth = s.synth ∧ (s.edgeEffects k).bus = s.bus ∧ (s.edgeEffects k).linkA = s.linkA ∧
      (s.edgeEffects k).linkB = s.linkB ∧ (s.edgeEffects k).exe = s.exe ∧ (s.edgeEffects k).pending = s.pending ∧
      (s.edgeEffects k).freeCount = s.freeCount := by
  simp only [State.edgeEffects]; repeat' split
  all_goals simp

@[simp] theorem Monitor.atEdge_frame (m : Monitor) (x : Instant) :
    (m.atEdge x).lastSymbol = m.lastSymbol ∧ (m.atEdge x).delayAt = m.delayAt ∧
      (m.atEdge x).coll = m.coll ∧ (m.atEdge x).timer = m.timer ∧ (m.atEdge x).bad = m.bad ∧
      (m.atEdge x).good = m.good ∧ (m.atEdge x).frameLost = m.frameLost ∧
      (m.atEdge x).inject = m.inject ∧ (m.atEdge x).lastFrame = m.lastFrame ∧
      (m.atEdge x).collecting = m.collecting ∧ (m.atEdge x).octets = m.octets ∧
      (m.atEdge x).heldHigh = m.heldHigh ∧ (m.atEdge x).rxText = m.rxText ∧
      (m.atEdge x).rxCycles = m.rxCycles ∧ (m.atEdge x).an = m.an ∧ (m.atEdge x).hunt = m.hunt ∧
      (m.atEdge x).gen = m.gen ∧ (m.atEdge x).correct = m.correct ∧ (m.atEdge x).miss = m.miss := by
  simp [Monitor.atEdge]

@[simp] theorem State.beginEdge_frame (s : State) (k : EdgeKind) :
    (s.beginEdge k).por = s.por ∧ (s.beginEdge k).txReady = s.txReady ∧
      (s.beginEdge k).monIn = s.monIn ∧ (s.beginEdge k).freqFrom = s.freqFrom ∧
      (s.beginEdge k).now = s.now ∧ (s.beginEdge k).params = s.params ∧
      (s.beginEdge k).sel = s.sel ∧ (s.beginEdge k).synth = s.synth ∧
      (s.beginEdge k).sched = s.sched ∧ (s.beginEdge k).comp = s.comp ∧
      (s.beginEdge k).key = s.key ∧ (s.beginEdge k).bus = s.bus ∧ (s.beginEdge k).cond = s.cond ∧
      (s.beginEdge k).linkA = s.linkA ∧ (s.beginEdge k).linkB = s.linkB ∧
      (s.beginEdge k).exe = s.exe ∧ (s.beginEdge k).pending = s.pending ∧
      (s.beginEdge k).freeCount = s.freeCount := by
  simp [State.beginEdge]

@[simp] theorem State.makeEdge_frame (s : State) (k : EdgeKind) :
    (s.makeEdge k).por = s.por ∧ (s.makeEdge k).txReady = s.txReady ∧ (s.makeEdge k).monIn = s.monIn ∧
      (s.makeEdge k).freqFrom = s.freqFrom ∧ (s.makeEdge k).now = s.now ∧ (s.makeEdge k).params = s.params ∧
      (s.makeEdge k).synth = s.synth ∧ (s.makeEdge k).bus = s.bus ∧ (s.makeEdge k).linkA = s.linkA ∧
      (s.makeEdge k).linkB = s.linkB ∧ (s.makeEdge k).exe = s.exe ∧ (s.makeEdge k).pending = s.pending ∧
      (s.makeEdge k).freeCount = s.freeCount := by
  simp [State.makeEdge]

@[simp] theorem State.pushOpen_frame (s : State) (p : Port) (u : OpenPulse) :
    (s.pushOpen p u).por = s.por ∧ (s.pushOpen p u).txReady = s.txReady ∧ (s.pushOpen p u).monIn = s.monIn ∧
      (s.pushOpen p u).freqFrom = s.freqFrom ∧ (s.pushOpen p u).now = s.now ∧ (s.pushOpen p u).params = s.params ∧
      (s.pushOpen p u).tb = s.tb ∧ (s.pushOpen p u).sel = s.sel ∧ (s.pushOpen p u).synth = s.synth ∧
      (s.pushOpen p u).sched = s.sched ∧ (s.pushOpen p u).comp = s.comp ∧ (s.pushOpen p u).key = s.key ∧
      (s.pushOpen p u).bus = s.bus ∧ (s.pushOpen p u).mon = s.mon ∧ (s.pushOpen p u).cond = s.cond ∧
      (s.pushOpen p u).linkA = s.linkA ∧ (s.pushOpen p u).linkB = s.linkB ∧ (s.pushOpen p u).exe = s.exe ∧
      (s.pushOpen p u).pending = s.pending ∧ (s.pushOpen p u).freeCount = s.freeCount := by
  simp [State.pushOpen]

@[simp] theorem State.pulseNow_frame (s : State) (p : Port) (u : OpenPulse) :
    (s.pulseNow p u).por = s.por ∧ (s.pulseNow p u).txReady = s.txReady ∧ (s.pulseNow p u).monIn = s.monIn ∧
      (s.pulseNow p u).freqFrom = s.freqFrom ∧ (s.pulseNow p u).now = s.now ∧ (s.pulseNow p u).params = s.params ∧
      (s.pulseNow p u).synth = s.synth ∧ (s.pulseNow p u).sched = s.sched ∧ (s.pulseNow p u).comp = s.comp ∧
      (s.pulseNow p u).key = s.key ∧ (s.pulseNow p u).bus = s.bus ∧ (s.pulseNow p u).mon = s.mon ∧
      (s.pulseNow p u).linkA = s.linkA ∧ (s.pulseNow p u).linkB = s.linkB ∧ (s.pulseNow p u).exe = s.exe ∧
      (s.pulseNow p u).pending = s.pending ∧ (s.pulseNow p u).freeCount = s.freeCount := by
  simp [State.pulseNow]

@[simp] theorem State.pulseEffects_frame (s : State) (p : Port) (u : OpenPulse) :
    (s.pulseEffects p u).por = s.por ∧ (s.pulseEffects p u).txReady = s.txReady ∧ (s.pulseEffects p u).monIn = s.monIn ∧
      (s.pulseEffects p u).freqFrom = s.freqFrom ∧ (s.pulseEffects p u).now = s.now ∧ (s.pulseEffects p u).params = s.params ∧
      (s.pulseEffects p u).synth = s.synth ∧ (s.pulseEffects p u).bus = s.bus ∧ (s.pulseEffects p u).linkA = s.linkA ∧
      (s.pulseEffects p u).linkB = s.linkB ∧ (s.pulseEffects p u).exe = s.exe ∧ (s.pulseEffects p u).pending = s.pending ∧
      (s.pulseEffects p u).freeCount = s.freeCount := by
  unfold State.pulseEffects; repeat' split
  all_goals simp

@[simp] theorem State.verdict_frame (s : State) (f : LastFrame) :
    (s.verdict f).por = s.por ∧ (s.verdict f).txReady = s.txReady ∧ (s.verdict f).monIn = s.monIn ∧
      (s.verdict f).freqFrom = s.freqFrom ∧ (s.verdict f).now = s.now ∧ (s.verdict f).params = s.params ∧
      (s.verdict f).tb = s.tb ∧ (s.verdict f).ref1 = s.ref1 ∧ (s.verdict f).ref2 = s.ref2 ∧
      (s.verdict f).sel = s.sel ∧ (s.verdict f).synth = s.synth ∧ (s.verdict f).sched = s.sched ∧
      (s.verdict f).comp = s.comp ∧ (s.verdict f).key = s.key ∧ (s.verdict f).bus = s.bus ∧
      (s.verdict f).linkA = s.linkA ∧ (s.verdict f).linkB = s.linkB ∧ (s.verdict f).exe = s.exe ∧
      (s.verdict f).pending = s.pending ∧ (s.verdict f).freeCount = s.freeCount := by
  simp [State.verdict]

@[simp] theorem State.judge_frame (s : State) (c : Collection) :
    (s.judge c).por = s.por ∧ (s.judge c).txReady = s.txReady ∧ (s.judge c).monIn = s.monIn ∧
      (s.judge c).freqFrom = s.freqFrom ∧ (s.judge c).now = s.now ∧ (s.judge c).params = s.params ∧
      (s.judge c).tb = s.tb ∧ (s.judge c).ref1 = s.ref1 ∧ (s.judge c).ref2 = s.ref2 ∧
      (s.judge c).sel = s.sel ∧ (s.judge c).synth = s.synth ∧ (s.judge c).sched = s.sched ∧
      (s.judge c).comp = s.comp ∧ (s.judge c).key = s.key ∧ (s.judge c).bus = s.bus ∧
      (s.judge c).linkA = s.linkA ∧ (s.judge c).linkB = s.linkB ∧ (s.judge c).exe = s.exe ∧
      (s.judge c).pending = s.pending ∧ (s.judge c).freeCount = s.freeCount := by
  simp only [State.judge]; split <;> simp

@[simp] theorem State.assemble_frame (s : State) (x : Symbol) (i : Instant) :
    (s.assemble x i).por = s.por ∧ (s.assemble x i).txReady = s.txReady ∧ (s.assemble x i).monIn = s.monIn ∧
      (s.assemble x i).freqFrom = s.freqFrom ∧ (s.assemble x i).now = s.now ∧ (s.assemble x i).params = s.params ∧
      (s.assemble x i).tb = s.tb ∧ (s.assemble x i).ref1 = s.ref1 ∧ (s.assemble x i).ref2 = s.ref2 ∧
      (s.assemble x i).sel = s.sel ∧ (s.assemble x i).synth = s.synth ∧ (s.assemble x i).sched = s.sched ∧
      (s.assemble x i).comp = s.comp ∧ (s.assemble x i).key = s.key ∧ (s.assemble x i).bus = s.bus ∧
      (s.assemble x i).linkA = s.linkA ∧ (s.assemble x i).linkB = s.linkB ∧ (s.assemble x i).exe = s.exe ∧
      (s.assemble x i).pending = s.pending ∧ (s.assemble x i).freeCount = s.freeCount := by
  simp only [State.assemble]; repeat' split
  all_goals simp

@[simp] theorem State.analyze_frame (s : State) (x : Symbol) :
    (s.analyze x).por = s.por ∧ (s.analyze x).txReady = s.txReady ∧ (s.analyze x).monIn = s.monIn ∧
      (s.analyze x).freqFrom = s.freqFrom ∧ (s.analyze x).now = s.now ∧ (s.analyze x).params = s.params ∧
      (s.analyze x).tb = s.tb ∧ (s.analyze x).ref1 = s.ref1 ∧ (s.analyze x).ref2 = s.ref2 ∧
      (s.analyze x).sel = s.sel ∧ (s.analyze x).synth = s.synth ∧ (s.analyze x).sched = s.sched ∧
      (s.analyze x).comp = s.comp ∧ (s.analyze x).key = s.key ∧ (s.analyze x).bus = s.bus ∧
      (s.analyze x).linkA = s.linkA ∧ (s.analyze x).linkB = s.linkB ∧ (s.analyze x).exe = s.exe ∧
      (s.analyze x).pending = s.pending ∧ (s.analyze x).freeCount = s.freeCount := by
  simp only [State.analyze]; repeat' split
  all_goals simp

@[simp] theorem State.handOn_frame (s : State) (m : OpenMark) (x : Symbol) :
    (s.handOn m x).por = s.por ∧ (s.handOn m x).txReady = s.txReady ∧ (s.handOn m x).monIn = s.monIn ∧
      (s.handOn m x).freqFrom = s.freqFrom ∧ (s.handOn m x).now = s.now ∧ (s.handOn m x).params = s.params ∧
      (s.handOn m x).tb = s.tb ∧ (s.handOn m x).ref1 = s.ref1 ∧ (s.handOn m x).ref2 = s.ref2 ∧
      (s.handOn m x).sel = s.sel ∧ (s.handOn m x).synth = s.synth ∧ (s.handOn m x).sched = s.sched ∧
      (s.handOn m x).comp = s.comp ∧ (s.handOn m x).key = s.key ∧ (s.handOn m x).bus = s.bus ∧
      (s.handOn m x).linkA = s.linkA ∧ (s.handOn m x).linkB = s.linkB ∧ (s.handOn m x).exe = s.exe ∧
      (s.handOn m x).pending = s.pending ∧ (s.handOn m x).freeCount = s.freeCount := by
  simp only [State.handOn]; repeat' split
  all_goals simp

@[simp] theorem State.openMark_frame (s : State) :
    (s.openMark).por = s.por ∧ (s.openMark).txReady = s.txReady ∧ (s.openMark).monIn = s.monIn ∧
      (s.openMark).freqFrom = s.freqFrom ∧ (s.openMark).now = s.now ∧ (s.openMark).params = s.params ∧
      (s.openMark).tb = s.tb ∧ (s.openMark).ref1 = s.ref1 ∧ (s.openMark).ref2 = s.ref2 ∧
      (s.openMark).sel = s.sel ∧ (s.openMark).synth = s.synth ∧ (s.openMark).sched = s.sched ∧
      (s.openMark).comp = s.comp ∧ (s.openMark).key = s.key ∧ (s.openMark).bus = s.bus ∧
      (s.openMark).cond = s.cond ∧ (s.openMark).linkA = s.linkA ∧ (s.openMark).linkB = s.linkB ∧
      (s.openMark).exe = s.exe ∧ (s.openMark).pending = s.pending := by
  simp [State.openMark]

@[simp] theorem State.monLine_frame (s : State) (b : Bool) :
    (s.monLine b).por = s.por ∧ (s.monLine b).txReady = s.txReady ∧ (s.monLine b).freqFrom = s.freqFrom ∧
      (s.monLine b).now = s.now ∧ (s.monLine b).params = s.params ∧ (s.monLine b).tb = s.tb ∧
      (s.monLine b).ref1 = s.ref1 ∧ (s.monLine b).ref2 = s.ref2 ∧ (s.monLine b).sel = s.sel ∧
      (s.monLine b).synth = s.synth ∧ (s.monLine b).sched = s.sched ∧ (s.monLine b).comp = s.comp ∧
      (s.monLine b).key = s.key ∧ (s.monLine b).bus = s.bus ∧ (s.monLine b).cond = s.cond ∧
      (s.monLine b).linkA = s.linkA ∧ (s.monLine b).linkB = s.linkB ∧ (s.monLine b).exe = s.exe ∧
      (s.monLine b).pending = s.pending := by
  simp only [State.monLine]; repeat' split
  all_goals simp

@[simp] theorem State.quietClose_frame (s : State) (m : OpenMark) :
    (s.quietClose m).por = s.por ∧ (s.quietClose m).txReady = s.txReady ∧ (s.quietClose m).monIn = s.monIn ∧
      (s.quietClose m).freqFrom = s.freqFrom ∧ (s.quietClose m).params = s.params ∧ (s.quietClose m).tb = s.tb ∧
      (s.quietClose m).ref1 = s.ref1 ∧ (s.quietClose m).ref2 = s.ref2 ∧ (s.quietClose m).sel = s.sel ∧
      (s.quietClose m).synth = s.synth ∧ (s.quietClose m).sched = s.sched ∧ (s.quietClose m).comp = s.comp ∧
      (s.quietClose m).key = s.key ∧ (s.quietClose m).bus = s.bus ∧ (s.quietClose m).linkA = s.linkA ∧
      (s.quietClose m).linkB = s.linkB ∧ (s.quietClose m).exe = s.exe ∧ (s.quietClose m).pending = s.pending ∧
      (s.quietClose m).freeCount = s.freeCount := by
  simp [State.quietClose]

@[simp] theorem State.longClose_frame (s : State) (m : OpenMark) :
    (s.longClose m).por = s.por ∧ (s.longClose m).txReady = s.txReady ∧ (s.longClose m).monIn = s.monIn ∧
      (s.longClose m).freqFrom = s.freqFrom ∧ (s.longClose m).params = s.params ∧ (s.longClose m).tb = s.tb ∧
      (s.longClose m).ref1 = s.ref1 ∧ (s.longClose m).ref2 = s.ref2 ∧ (s.longClose m).sel = s.sel ∧
      (s.longClose m).synth = s.synth ∧ (s.longClose m).sched = s.sched ∧ (s.longClose m).comp = s.comp ∧
      (s.longClose m).key = s.key ∧ (s.longClose m).bus = s.bus ∧ (s.longClose m).linkA = s.linkA ∧
      (s.longClose m).linkB = s.linkB ∧ (s.longClose m).exe = s.exe ∧ (s.longClose m).pending = s.pending ∧
      (s.longClose m).freeCount = s.freeCount := by
  simp [State.longClose]

@[simp] theorem State.frameTimeout_frame (s : State) (t : Nat) :
    (s.frameTimeout t).por = s.por ∧ (s.frameTimeout t).txReady = s.txReady ∧ (s.frameTimeout t).monIn = s.monIn ∧
      (s.frameTimeout t).freqFrom = s.freqFrom ∧ (s.frameTimeout t).params = s.params ∧ (s.frameTimeout t).tb = s.tb ∧
      (s.frameTimeout t).ref1 = s.ref1 ∧ (s.frameTimeout t).ref2 = s.ref2 ∧ (s.frameTimeout t).sel = s.sel ∧
      (s.frameTimeout t).synth = s.synth ∧ (s.frameTimeout t).sched = s.sched ∧ (s.frameTimeout t).comp = s.comp ∧
      (s.frameTimeout t).key = s.key ∧ (s.frameTimeout t).bus = s.bus ∧ (s.frameTimeout t).linkA = s.linkA ∧
      (s.frameTimeout t).linkB = s.linkB ∧ (s.frameTimeout t).exe = s.exe ∧ (s.frameTimeout t).pending = s.pending ∧
      (s.frameTimeout t).freeCount = s.freeCount := by
  simp [State.frameTimeout]

@[simp] theorem State.beginTxn_frame (s : State) (b : Bool) (a r : Nat) (v : Option (BitVec 16)) :
    (s.beginTxn b a r v).por = s.por ∧ (s.beginTxn b a r v).txReady = s.txReady ∧ (s.beginTxn b a r v).monIn = s.monIn ∧
      (s.beginTxn b a r v).freqFrom = s.freqFrom ∧ (s.beginTxn b a r v).now = s.now ∧ (s.beginTxn b a r v).params = s.params ∧
      (s.beginTxn b a r v).tb = s.tb ∧ (s.beginTxn b a r v).ref1 = s.ref1 ∧ (s.beginTxn b a r v).ref2 = s.ref2 ∧
      (s.beginTxn b a r v).sel = s.sel ∧ (s.beginTxn b a r v).synth = s.synth ∧ (s.beginTxn b a r v).sched = s.sched ∧
      (s.beginTxn b a r v).comp = s.comp ∧ (s.beginTxn b a r v).key = s.key ∧ (s.beginTxn b a r v).mon = s.mon ∧
      (s.beginTxn b a r v).cond = s.cond ∧ (s.beginTxn b a r v).linkA = s.linkA ∧ (s.beginTxn b a r v).linkB = s.linkB ∧
      (s.beginTxn b a r v).exe = s.exe ∧ (s.beginTxn b a r v).pending = s.pending ∧ (s.beginTxn b a r v).freeCount = s.freeCount := by
  simp [State.beginTxn]

@[simp] theorem State.chooseNext_frame (s : State) :
    (s.chooseNext).por = s.por ∧ (s.chooseNext).txReady = s.txReady ∧ (s.chooseNext).monIn = s.monIn ∧
      (s.chooseNext).freqFrom = s.freqFrom ∧ (s.chooseNext).now = s.now ∧ (s.chooseNext).params = s.params ∧
      (s.chooseNext).tb = s.tb ∧ (s.chooseNext).ref1 = s.ref1 ∧ (s.chooseNext).ref2 = s.ref2 ∧
      (s.chooseNext).sel = s.sel ∧ (s.chooseNext).synth = s.synth ∧ (s.chooseNext).sched = s.sched ∧
      (s.chooseNext).comp = s.comp ∧ (s.chooseNext).key = s.key ∧ (s.chooseNext).mon = s.mon ∧
      (s.chooseNext).cond = s.cond ∧ (s.chooseNext).linkA = s.linkA ∧ (s.chooseNext).linkB = s.linkB ∧
      (s.chooseNext).exe = s.exe ∧ (s.chooseNext).pending = s.pending ∧ (s.chooseNext).freeCount = s.freeCount := by
  simp only [State.chooseNext]; repeat' split
  all_goals simp

@[simp] theorem State.kickBus_frame (s : State) :
    (s.kickBus).por = s.por ∧ (s.kickBus).txReady = s.txReady ∧ (s.kickBus).monIn = s.monIn ∧
      (s.kickBus).freqFrom = s.freqFrom ∧ (s.kickBus).now = s.now ∧ (s.kickBus).params = s.params ∧
      (s.kickBus).tb = s.tb ∧ (s.kickBus).ref1 = s.ref1 ∧ (s.kickBus).ref2 = s.ref2 ∧
      (s.kickBus).sel = s.sel ∧ (s.kickBus).synth = s.synth ∧ (s.kickBus).sched = s.sched ∧
      (s.kickBus).comp = s.comp ∧ (s.kickBus).key = s.key ∧ (s.kickBus).mon = s.mon ∧
      (s.kickBus).cond = s.cond ∧ (s.kickBus).linkA = s.linkA ∧ (s.kickBus).linkB = s.linkB ∧
      (s.kickBus).exe = s.exe ∧ (s.kickBus).pending = s.pending ∧ (s.kickBus).freeCount = s.freeCount := by
  unfold State.kickBus; split <;> simp

@[simp] theorem State.updateRecord_frame (s : State) (a : Nat) (r : ScanRec) :
    (s.updateRecord a r).por = s.por ∧ (s.updateRecord a r).txReady = s.txReady ∧ (s.updateRecord a r).monIn = s.monIn ∧
      (s.updateRecord a r).freqFrom = s.freqFrom ∧ (s.updateRecord a r).now = s.now ∧ (s.updateRecord a r).params = s.params ∧
      (s.updateRecord a r).tb = s.tb ∧ (s.updateRecord a r).ref1 = s.ref1 ∧ (s.updateRecord a r).ref2 = s.ref2 ∧
      (s.updateRecord a r).sel = s.sel ∧ (s.updateRecord a r).synth = s.synth ∧ (s.updateRecord a r).sched = s.sched ∧
      (s.updateRecord a r).comp = s.comp ∧ (s.updateRecord a r).key = s.key ∧ (s.updateRecord a r).mon = s.mon ∧
      (s.updateRecord a r).linkA = s.linkA ∧ (s.updateRecord a r).linkB = s.linkB ∧ (s.updateRecord a r).exe = s.exe ∧
      (s.updateRecord a r).pending = s.pending ∧ (s.updateRecord a r).freeCount = s.freeCount := by
  simp [State.updateRecord]

@[simp] theorem State.recordOutcome_frame (s : State) (a : Nat) (w : Option (BitVec 16)) :
    (s.recordOutcome a w).por = s.por ∧ (s.recordOutcome a w).txReady = s.txReady ∧ (s.recordOutcome a w).monIn = s.monIn ∧
      (s.recordOutcome a w).freqFrom = s.freqFrom ∧ (s.recordOutcome a w).now = s.now ∧ (s.recordOutcome a w).params = s.params ∧
      (s.recordOutcome a w).tb = s.tb ∧ (s.recordOutcome a w).ref1 = s.ref1 ∧ (s.recordOutcome a w).ref2 = s.ref2 ∧
      (s.recordOutcome a w).sel = s.sel ∧ (s.recordOutcome a w).synth = s.synth ∧ (s.recordOutcome a w).sched = s.sched ∧
      (s.recordOutcome a w).comp = s.comp ∧ (s.recordOutcome a w).key = s.key ∧ (s.recordOutcome a w).mon = s.mon ∧
      (s.recordOutcome a w).linkA = s.linkA ∧ (s.recordOutcome a w).linkB = s.linkB ∧ (s.recordOutcome a w).exe = s.exe ∧
      (s.recordOutcome a w).pending = s.pending ∧ (s.recordOutcome a w).freeCount = s.freeCount := by
  unfold State.recordOutcome; split <;> simp

@[simp] theorem State.scanEnds_frame (s : State) (t : Txn) (w : Option (BitVec 16)) :
    (s.scanEnds t w).por = s.por ∧ (s.scanEnds t w).txReady = s.txReady ∧ (s.scanEnds t w).monIn = s.monIn ∧
      (s.scanEnds t w).freqFrom = s.freqFrom ∧ (s.scanEnds t w).now = s.now ∧ (s.scanEnds t w).params = s.params ∧
      (s.scanEnds t w).tb = s.tb ∧ (s.scanEnds t w).ref1 = s.ref1 ∧ (s.scanEnds t w).ref2 = s.ref2 ∧
      (s.scanEnds t w).sel = s.sel ∧ (s.scanEnds t w).synth = s.synth ∧ (s.scanEnds t w).sched = s.sched ∧
      (s.scanEnds t w).comp = s.comp ∧ (s.scanEnds t w).key = s.key ∧ (s.scanEnds t w).mon = s.mon ∧
      (s.scanEnds t w).linkA = s.linkA ∧ (s.scanEnds t w).linkB = s.linkB ∧ (s.scanEnds t w).exe = s.exe ∧
      (s.scanEnds t w).pending = s.pending ∧ (s.scanEnds t w).freeCount = s.freeCount := by
  simp only [State.scanEnds]; split <;> simp

@[simp] theorem State.relayResponse_frame (s : State) (x : RelayEntry) (n : Nat) (w : Option (BitVec 16)) :
    (s.relayResponse x n w).por = s.por ∧ (s.relayResponse x n w).txReady = s.txReady ∧ (s.relayResponse x n w).monIn = s.monIn ∧
      (s.relayResponse x n w).freqFrom = s.freqFrom ∧ (s.relayResponse x n w).now = s.now ∧ (s.relayResponse x n w).params = s.params ∧
      (s.relayResponse x n w).tb = s.tb ∧ (s.relayResponse x n w).ref1 = s.ref1 ∧ (s.relayResponse x n w).ref2 = s.ref2 ∧
      (s.relayResponse x n w).sel = s.sel ∧ (s.relayResponse x n w).synth = s.synth ∧ (s.relayResponse x n w).sched = s.sched ∧
      (s.relayResponse x n w).comp = s.comp ∧ (s.relayResponse x n w).key = s.key ∧ (s.relayResponse x n w).bus = s.bus ∧
      (s.relayResponse x n w).mon = s.mon ∧ (s.relayResponse x n w).cond = s.cond ∧ (s.relayResponse x n w).exe = s.exe ∧
      (s.relayResponse x n w).pending = s.pending ∧ (s.relayResponse x n w).freeCount = s.freeCount := by
  unfold State.relayResponse; repeat' split
  all_goals simp

@[simp] theorem State.relayEnds_frame (s : State) (t : Txn) (w : Option (BitVec 16)) :
    (s.relayEnds t w).por = s.por ∧ (s.relayEnds t w).txReady = s.txReady ∧ (s.relayEnds t w).monIn = s.monIn ∧
      (s.relayEnds t w).freqFrom = s.freqFrom ∧ (s.relayEnds t w).now = s.now ∧ (s.relayEnds t w).params = s.params ∧
      (s.relayEnds t w).tb = s.tb ∧ (s.relayEnds t w).ref1 = s.ref1 ∧ (s.relayEnds t w).ref2 = s.ref2 ∧
      (s.relayEnds t w).sel = s.sel ∧ (s.relayEnds t w).synth = s.synth ∧ (s.relayEnds t w).sched = s.sched ∧
      (s.relayEnds t w).comp = s.comp ∧ (s.relayEnds t w).key = s.key ∧ (s.relayEnds t w).mon = s.mon ∧
      (s.relayEnds t w).exe = s.exe ∧ (s.relayEnds t w).pending = s.pending ∧ (s.relayEnds t w).freeCount = s.freeCount := by
  simp only [State.relayEnds]; repeat' split
  all_goals simp

@[simp] theorem State.txnEnds_frame (s : State) (t : Txn) (w : Option (BitVec 16)) :
    (s.txnEnds t w).por = s.por ∧ (s.txnEnds t w).txReady = s.txReady ∧ (s.txnEnds t w).monIn = s.monIn ∧
      (s.txnEnds t w).freqFrom = s.freqFrom ∧ (s.txnEnds t w).now = s.now ∧ (s.txnEnds t w).params = s.params ∧
      (s.txnEnds t w).tb = s.tb ∧ (s.txnEnds t w).ref1 = s.ref1 ∧ (s.txnEnds t w).ref2 = s.ref2 ∧
      (s.txnEnds t w).sel = s.sel ∧ (s.txnEnds t w).synth = s.synth ∧ (s.txnEnds t w).sched = s.sched ∧
      (s.txnEnds t w).comp = s.comp ∧ (s.txnEnds t w).key = s.key ∧ (s.txnEnds t w).mon = s.mon ∧
      (s.txnEnds t w).exe = s.exe ∧ (s.txnEnds t w).pending = s.pending ∧ (s.txnEnds t w).freeCount = s.freeCount := by
  simp only [State.txnEnds]; split <;> simp

@[simp] theorem State.noAnswer_frame (s : State) (t : Txn) :
    (s.noAnswer t).por = s.por ∧ (s.noAnswer t).txReady = s.txReady ∧ (s.noAnswer t).monIn = s.monIn ∧
      (s.noAnswer t).freqFrom = s.freqFrom ∧ (s.noAnswer t).now = s.now ∧ (s.noAnswer t).params = s.params ∧
      (s.noAnswer t).tb = s.tb ∧ (s.noAnswer t).ref1 = s.ref1 ∧ (s.noAnswer t).ref2 = s.ref2 ∧
      (s.noAnswer t).sel = s.sel ∧ (s.noAnswer t).synth = s.synth ∧ (s.noAnswer t).sched = s.sched ∧
      (s.noAnswer t).comp = s.comp ∧ (s.noAnswer t).key = s.key ∧ (s.noAnswer t).mon = s.mon ∧
      (s.noAnswer t).exe = s.exe ∧ (s.noAnswer t).pending = s.pending ∧ (s.noAnswer t).freeCount = s.freeCount := by
  simp only [State.noAnswer]; split <;> simp

@[simp] theorem State.changeRange_frame (s : State) (a b : Nat) :
    (s.changeRange a b).por = s.por ∧ (s.changeRange a b).txReady = s.txReady ∧ (s.changeRange a b).monIn = s.monIn ∧
      (s.changeRange a b).freqFrom = s.freqFrom ∧ (s.changeRange a b).now = s.now ∧ (s.changeRange a b).params = s.params ∧
      (s.changeRange a b).tb = s.tb ∧ (s.changeRange a b).ref1 = s.ref1 ∧ (s.changeRange a b).ref2 = s.ref2 ∧
      (s.changeRange a b).sel = s.sel ∧ (s.changeRange a b).synth = s.synth ∧ (s.changeRange a b).sched = s.sched ∧
      (s.changeRange a b).comp = s.comp ∧ (s.changeRange a b).key = s.key ∧ (s.changeRange a b).mon = s.mon ∧
      (s.changeRange a b).linkA = s.linkA ∧ (s.changeRange a b).linkB = s.linkB ∧ (s.changeRange a b).exe = s.exe ∧
      (s.changeRange a b).pending = s.pending ∧ (s.changeRange a b).freeCount = s.freeCount := by
  unfold State.changeRange; split <;> simp

@[simp] theorem State.replaceView_frame (s : State) (l : Link) :
    (s.replaceView l).por = s.por ∧ (s.replaceView l).txReady = s.txReady ∧ (s.replaceView l).monIn = s.monIn ∧
      (s.replaceView l).freqFrom = s.freqFrom ∧ (s.replaceView l).now = s.now ∧ (s.replaceView l).params = s.params ∧
      (s.replaceView l).tb = s.tb ∧ (s.replaceView l).ref1 = s.ref1 ∧ (s.replaceView l).ref2 = s.ref2 ∧
      (s.replaceView l).sel = s.sel ∧ (s.replaceView l).synth = s.synth ∧ (s.replaceView l).sched = s.sched ∧
      (s.replaceView l).comp = s.comp ∧ (s.replaceView l).key = s.key ∧ (s.replaceView l).bus = s.bus ∧
      (s.replaceView l).mon = s.mon ∧ (s.replaceView l).linkA = s.linkA ∧ (s.replaceView l).linkB = s.linkB ∧
      (s.replaceView l).exe = s.exe ∧ (s.replaceView l).pending = s.pending ∧ (s.replaceView l).freeCount = s.freeCount := by
  simp [State.replaceView]

@[simp] theorem State.monitorEnableChange_frame (s : State) (s0 : State) :
    (s0.monitorEnableChange s).por = s.por ∧ (s0.monitorEnableChange s).txReady = s.txReady ∧ (s0.monitorEnableChange s).monIn = s.monIn ∧
      (s0.monitorEnableChange s).freqFrom = s.freqFrom ∧ (s0.monitorEnableChange s).now = s.now ∧ (s0.monitorEnableChange s).params = s.params ∧
      (s0.monitorEnableChange s).tb = s.tb ∧ (s0.monitorEnableChange s).ref1 = s.ref1 ∧ (s0.monitorEnableChange s).ref2 = s.ref2 ∧
      (s0.monitorEnableChange s).sel = s.sel ∧ (s0.monitorEnableChange s).synth = s.synth ∧ (s0.monitorEnableChange s).sched = s.sched ∧
      (s0.monitorEnableChange s).comp = s.comp ∧ (s0.monitorEnableChange s).key = s.key ∧ (s0.monitorEnableChange s).bus = s.bus ∧
      (s0.monitorEnableChange s).cond = s.cond ∧ (s0.monitorEnableChange s).linkA = s.linkA ∧ (s0.monitorEnableChange s).linkB = s.linkB ∧
      (s0.monitorEnableChange s).exe = s.exe ∧ (s0.monitorEnableChange s).pending = s.pending ∧ (s0.monitorEnableChange s).freeCount = s.freeCount := by
  unfold State.monitorEnableChange; split <;> simp

@[simp] theorem State.scanEnableChange_frame (s : State) (s0 : State) :
    (s0.scanEnableChange s).por = s.por ∧ (s0.scanEnableChange s).txReady = s.txReady ∧ (s0.scanEnableChange s).monIn = s.monIn ∧
      (s0.scanEnableChange s).freqFrom = s.freqFrom ∧ (s0.scanEnableChange s).now = s.now ∧ (s0.scanEnableChange s).params = s.params ∧
      (s0.scanEnableChange s).tb = s.tb ∧ (s0.scanEnableChange s).ref1 = s.ref1 ∧ (s0.scanEnableChange s).ref2 = s.ref2 ∧
      (s0.scanEnableChange s).sel = s.sel ∧ (s0.scanEnableChange s).synth = s.synth ∧ (s0.scanEnableChange s).sched = s.sched ∧
      (s0.scanEnableChange s).comp = s.comp ∧ (s0.scanEnableChange s).key = s.key ∧ (s0.scanEnableChange s).mon = s.mon ∧
      (s0.scanEnableChange s).cond = s.cond ∧ (s0.scanEnableChange s).linkA = s.linkA ∧ (s0.scanEnableChange s).linkB = s.linkB ∧
      (s0.scanEnableChange s).exe = s.exe ∧ (s0.scanEnableChange s).pending = s.pending ∧ (s0.scanEnableChange s).freeCount = s.freeCount := by
  unfold State.scanEnableChange; split <;> simp

@[simp] theorem State.storeParam_frame (s : State) (id v : Nat) :
    (s.storeParam id v).por = s.por ∧ (s.storeParam id v).txReady = s.txReady ∧ (s.storeParam id v).monIn = s.monIn ∧
      (s.storeParam id v).freqFrom = s.freqFrom ∧ (s.storeParam id v).now = s.now ∧ (s.storeParam id v).tb = s.tb ∧
      (s.storeParam id v).ref1 = s.ref1 ∧ (s.storeParam id v).ref2 = s.ref2 ∧ (s.storeParam id v).sel = s.sel ∧
      (s.storeParam id v).synth = s.synth ∧ (s.storeParam id v).sched = s.sched ∧ (s.storeParam id v).comp = s.comp ∧
      (s.storeParam id v).key = s.key ∧ (s.storeParam id v).cond = s.cond ∧ (s.storeParam id v).linkA = s.linkA ∧
      (s.storeParam id v).linkB = s.linkB ∧ (s.storeParam id v).exe = s.exe ∧ (s.storeParam id v).pending = s.pending ∧
      (s.storeParam id v).freeCount = s.freeCount := by
  simp [State.storeParam]

@[simp] theorem State.resetView_frame (s : State) (l : Link) :
    (s.resetView l).por = s.por ∧ (s.resetView l).txReady = s.txReady ∧ (s.resetView l).monIn = s.monIn ∧
      (s.resetView l).freqFrom = s.freqFrom ∧ (s.resetView l).now = s.now ∧ (s.resetView l).params = s.params ∧
      (s.resetView l).tb = s.tb ∧ (s.resetView l).ref1 = s.ref1 ∧ (s.resetView l).ref2 = s.ref2 ∧
      (s.resetView l).sel = s.sel ∧ (s.resetView l).synth = s.synth ∧ (s.resetView l).sched = s.sched ∧
      (s.resetView l).comp = s.comp ∧ (s.resetView l).key = s.key ∧ (s.resetView l).bus = s.bus ∧
      (s.resetView l).mon = s.mon ∧ (s.resetView l).linkA = s.linkA ∧ (s.resetView l).linkB = s.linkB ∧
      (s.resetView l).exe = s.exe ∧ (s.resetView l).pending = s.pending ∧ (s.resetView l).freeCount = s.freeCount := by
  simp [State.resetView]

@[simp] theorem State.clearLink_frame (s : State) (l : Link) :
    (s.clearLink l).por = s.por ∧ (s.clearLink l).txReady = s.txReady ∧ (s.clearLink l).monIn = s.monIn ∧
      (s.clearLink l).freqFrom = s.freqFrom ∧ (s.clearLink l).now = s.now ∧ (s.clearLink l).params = s.params ∧
      (s.clearLink l).tb = s.tb ∧ (s.clearLink l).ref1 = s.ref1 ∧ (s.clearLink l).ref2 = s.ref2 ∧
      (s.clearLink l).sel = s.sel ∧ (s.clearLink l).synth = s.synth ∧ (s.clearLink l).sched = s.sched ∧
      (s.clearLink l).comp = s.comp ∧ (s.clearLink l).key = s.key ∧ (s.clearLink l).mon = s.mon ∧
      (s.clearLink l).cond = s.cond ∧ (s.clearLink l).exe = s.exe ∧ (s.clearLink l).pending = s.pending ∧
      (s.clearLink l).freeCount = s.freeCount := by
  simp [State.clearLink]

@[simp] theorem State.restartBus_frame (s : State) :
    (s.restartBus).por = s.por ∧ (s.restartBus).txReady = s.txReady ∧ (s.restartBus).monIn = s.monIn ∧
      (s.restartBus).freqFrom = s.freqFrom ∧ (s.restartBus).now = s.now ∧ (s.restartBus).params = s.params ∧
      (s.restartBus).tb = s.tb ∧ (s.restartBus).ref1 = s.ref1 ∧ (s.restartBus).ref2 = s.ref2 ∧
      (s.restartBus).sel = s.sel ∧ (s.restartBus).synth = s.synth ∧ (s.restartBus).sched = s.sched ∧
      (s.restartBus).comp = s.comp ∧ (s.restartBus).key = s.key ∧ (s.restartBus).mon = s.mon ∧
      (s.restartBus).cond = s.cond ∧ (s.restartBus).linkA = s.linkA ∧ (s.restartBus).linkB = s.linkB ∧
      (s.restartBus).exe = s.exe ∧ (s.restartBus).pending = s.pending ∧ (s.restartBus).freeCount = s.freeCount := by
  simp [State.restartBus]

@[simp] theorem State.restartKeeping_frame (s : State) :
    (s.restartKeeping).por = s.por ∧ (s.restartKeeping).txReady = s.txReady ∧ (s.restartKeeping).monIn = s.monIn ∧
      (s.restartKeeping).freqFrom = s.freqFrom ∧ (s.restartKeeping).now = s.now ∧ (s.restartKeeping).params = s.params ∧
      (s.restartKeeping).tb = s.tb ∧ (s.restartKeeping).ref1 = s.ref1 ∧ (s.restartKeeping).ref2 = s.ref2 ∧
      (s.restartKeeping).sel = s.sel ∧ (s.restartKeeping).synth = s.synth ∧ (s.restartKeeping).sched = s.sched ∧
      (s.restartKeeping).comp = s.comp ∧ (s.restartKeeping).key = s.key ∧ (s.restartKeeping).pending = s.pending ∧
      (s.restartKeeping).freeCount = s.freeCount := by
  simp [State.restartKeeping]

end Sys2Proof.Machine
end

