-- ==== Sys2Proof/Laws/Requests.lean ====
section
/-! SUPPORT. What taking up a request does: the choice of R212 names a waiting entry, so a request that
is chosen is executed at once, and one lemma turns what its owning block does into what the command
answers. -/

namespace Sys2Proof.Machine

@[simp] theorem State.link_a (s : State) : s.link .a = s.linkA := rfl
@[simp] theorem State.link_b (s : State) : s.link .b = s.linkB := rfl
@[simp] theorem State.port_p1 (s : State) : s.port .p1 = s.ref1 := rfl
@[simp] theorem State.port_p2 (s : State) : s.port .p2 = s.ref2 := rfl

@[simp] theorem State.link_setLink (s : State) (l : Link) (x : LinkState) : (s.setLink l x).link l = x := by
  cases l <;> rfl

@[simp] theorem State.link_other_setLink (s : State) (l : Link) (x : LinkState) :
    (s.setLink l x).link l.other = s.link l.other := by
  cases l <;> rfl

@[simp] theorem State.port_setPort (s : State) (p : Port) (x : RefPort) : (s.setPort p x).port p = x := by
  cases p <;> rfl

@[simp] theorem State.port_other_setPort (s : State) (p : Port) (x : RefPort) :
    (s.setPort p x).port p.other = s.port p.other := by
  cases p <;> rfl

/-- Moving a port gives it the new value and leaves the other; beside the ports only its counter of exits
can change (R50). -/
@[simp] theorem State.movePort_ports (s : State) (p : Port) (r : RefPort) :
    (s.movePort p r).ref1 = (s.setPort p r).ref1 ∧ (s.movePort p r).ref2 = (s.setPort p r).ref2 ∧
      (s.movePort p r).port p = r ∧ (s.movePort p r).port p.other = s.port p.other := by
  cases p <;> simp only [State.movePort] <;> split <;> exact ⟨rfl, rfl, rfl, rfl⟩

/-- The request that the executor takes next is the oldest waiting one of its link. -/
theorem State.choice_oldest {s : State} {l : Link} {q : Request} (h : s.choice = some (l, q)) :
    (s.link l).oldestWaiting = some q := by
  unfold State.choice at h
  split at h
  · simp at h
  · simp only [Option.map_eq_some_iff, Prod.mk.injEq] at h
    obtain ⟨r, hr, rfl, rfl⟩ := h
    exact hr

/-- The request that the executor takes next waits on its link's outstanding list. -/
theorem State.choice_waits {s : State} {l : Link} {q : Request} (h : s.choice = some (l, q)) :
    ∃ e ∈ (s.link l).outstanding, e.st = .waiting ∧ e.req = q := by
  have h := State.choice_oldest h
  unfold LinkState.oldestWaiting at h
  cases he : (s.link l).outstanding.find? (·.st = .waiting) with
  | none => simp [he] at h
  | some e =>
    simp [he] at h
    have hp := List.find?_some he
    exact ⟨e, List.mem_of_find?_eq_some he, by simpa using hp, h⟩

/-- A chosen request needs no arrival. -/
theorem State.ensureTaken_chosen {s : State} {l : Link} {q : Request} (h : s.choice = some (l, q)) :
    s.ensureTaken l q = s := by
  obtain ⟨e, he, hst, hq⟩ := State.choice_waits h
  unfold State.ensureTaken
  rw [if_pos]
  exact List.any_eq_true.mpr ⟨e, he, by simp [hst, hq]⟩

/-- A chosen request is executed. -/
theorem State.request_chosen {s : State} {l : Link} {q : Request} (hp : s.por = false)
    (h : s.choice = some (l, q)) (act : State → Acted) :
    s.request l q act = ((act { s with exe := s.exe.serve l }).finish l q.tag q.code).settle := by
  simp [State.request, hp, State.ensureTaken_chosen h, h]

/-- What the executor takes up is its choice. -/
theorem State.takesUp_iff {s : State} {c : Instr} {l : Link} {q : Request}
    (hc : c.asRequest = some (l, q)) :
    s.takesUp c = true ↔ s.por = false ∧ s.choice = some (l, q) := by
  simp [State.takesUp, hc]

/-- A command that executes a request answers what its owning block answers, if the executor takes it
up. -/
theorem State.answers_of {s : State} {c : Instr} {l : Link} {q : Request} {act : State → Acted}
    {r : Result} {data : List Octet} {block : State → State} (ht : s.takesUp c = true)
    (hc : c.asRequest = some (l, q)) (hx : ∀ s, exec c s = .next (s.request l q act))
    (ha : act { s with exe := s.exe.serve l } =
      .answered r data (block { s with exe := s.exe.serve l })) :
    s.Answers c r data block := by
  obtain ⟨hp, h⟩ := (State.takesUp_iff hc).mp ht
  refine ⟨l, q, hc, ?_⟩
  rw [hx, State.request_chosen hp h, ha]
  rfl

/-- The same of what the owning block leaves, for a block that neither reads nor writes the executor's
turn. -/
theorem State.answersWith_of {s x : State} {c : Instr} {l : Link} {q : Request} {act : State → Acted}
    {r : Result} {data : List Octet} (ht : s.takesUp c = true)
    (hc : c.asRequest = some (l, q)) (hx : ∀ s, exec c s = .next (s.request l q act))
    (ha : act { s with exe := s.exe.serve l } = .answered r data { x with exe := s.exe.serve l }) :
    s.AnswersWith c r data x := by
  obtain ⟨hp, h⟩ := (State.takesUp_iff hc).mp ht
  refine ⟨l, q, hc, ?_⟩
  rw [hx, State.request_chosen hp h, ha]
  rfl

end Sys2Proof.Machine
end

