-- ==== Sys2Proof/Laws/Timebase.lean ====
section
/-! SUPPORT. What each operation on the timebase leaves of it: one lemma per operation, a simp rule for
each field. -/

namespace Sys2Proof.Machine

/-- The correction of an offset changes the length of the second and its record alone (R29). -/
@[simp] theorem State.correct_tb (s : State) (p : Port) (o : Int) :
    (s.correct p o).tb.timeSet = s.tb.timeSet ∧ (s.correct p o).tb.day = s.tb.day ∧
      (s.correct p o).tb.sec = s.tb.sec ∧ (s.correct p o).tb.minLen = s.tb.minLen ∧
      (s.correct p o).tb.handed = s.tb.handed ∧ (s.correct p o).tb.freeSec = s.tb.freeSec ∧
      (s.correct p o).tb.freeMin = s.tb.freeMin ∧ (s.correct p o).tb.disc = s.tb.disc ∧
      (s.correct p o).tb.holdAge = s.tb.holdAge ∧ (s.correct p o).tb.source = s.tb.source ∧
      (s.correct p o).tb.trim = s.tb.trim ∧ (s.correct p o).tb.trimValid = s.tb.trimValid ∧
      (s.correct p o).tb.k = s.tb.k ∧ (s.correct p o).tb.winCount = s.tb.winCount ∧
      (s.correct p o).tb.winSum = s.tb.winSum ∧ (s.correct p o).tb.begunLocked = s.tb.begunLocked ∧
      (s.correct p o).tb.edgeAt = s.tb.edgeAt ∧ (s.correct p o).tb.edgeMade = s.tb.edgeMade ∧
      (s.correct p o).tb.stepWaiting = s.tb.stepWaiting ∧ (s.correct p o).tb.acq = s.tb.acq ∧
      (s.correct p o).tb.pendingStep = s.tb.pendingStep := by
  simp only [State.correct]; repeat' split
  all_goals simp

/-- Following the selection changes the discipline, the window and what waits alone (R30, R31, R36). -/
@[simp] theorem State.follow_tb (s : State) (old : Option Port) :
    (s.follow old).tb.timeSet = s.tb.timeSet ∧ (s.follow old).tb.day = s.tb.day ∧
      (s.follow old).tb.sec = s.tb.sec ∧ (s.follow old).tb.minLen = s.tb.minLen ∧
      (s.follow old).tb.handed = s.tb.handed ∧ (s.follow old).tb.freeSec = s.tb.freeSec ∧
      (s.follow old).tb.freeMin = s.tb.freeMin ∧ (s.follow old).tb.source = s.tb.source ∧
      (s.follow old).tb.trim = s.tb.trim ∧ (s.follow old).tb.trimValid = s.tb.trimValid ∧
      (s.follow old).tb.k = s.tb.k ∧ (s.follow old).tb.corr = s.tb.corr ∧
      (s.follow old).tb.slewing = s.tb.slewing ∧ (s.follow old).tb.lastCorr = s.tb.lastCorr ∧
      (s.follow old).tb.lastSlew = s.tb.lastSlew ∧ (s.follow old).tb.edgeAt = s.tb.edgeAt ∧
      (s.follow old).tb.edgeMade = s.tb.edgeMade ∧ (s.follow old).tb.length = s.tb.length ∧
      (s.follow old).tb.pendingStep = s.tb.pendingStep := by
  unfold State.follow; repeat' split
  all_goals simp [Timebase.leaveLocked, Timebase.emptyWindow, State.enterLocked]

/-- Abandoning a phase step changes nothing else (R34). -/
@[simp] theorem State.abandonStep_tb (s : State) :
    (s.abandonStep).tb.timeSet = s.tb.timeSet ∧ (s.abandonStep).tb.day = s.tb.day ∧
      (s.abandonStep).tb.sec = s.tb.sec ∧ (s.abandonStep).tb.minLen = s.tb.minLen ∧
      (s.abandonStep).tb.handed = s.tb.handed ∧ (s.abandonStep).tb.freeSec = s.tb.freeSec ∧
      (s.abandonStep).tb.freeMin = s.tb.freeMin ∧ (s.abandonStep).tb.disc = s.tb.disc ∧
      (s.abandonStep).tb.holdAge = s.tb.holdAge ∧ (s.abandonStep).tb.source = s.tb.source ∧
      (s.abandonStep).tb.trim = s.tb.trim ∧ (s.abandonStep).tb.trimValid = s.tb.trimValid ∧
      (s.abandonStep).tb.k = s.tb.k ∧ (s.abandonStep).tb.winCount = s.tb.winCount ∧
      (s.abandonStep).tb.winSum = s.tb.winSum ∧ (s.abandonStep).tb.begunLocked = s.tb.begunLocked ∧
      (s.abandonStep).tb.corr = s.tb.corr ∧ (s.abandonStep).tb.slewing = s.tb.slewing ∧
      (s.abandonStep).tb.lastCorr = s.tb.lastCorr ∧ (s.abandonStep).tb.lastSlew = s.tb.lastSlew ∧
      (s.abandonStep).tb.edgeAt = s.tb.edgeAt ∧ (s.abandonStep).tb.edgeMade = s.tb.edgeMade ∧
      (s.abandonStep).tb.length = s.tb.length ∧ (s.abandonStep).tb.acq = s.tb.acq ∧
      (s.abandonStep).tb.pendingStep = s.tb.pendingStep := by
  simp [State.abandonStep]

@[simp] theorem State.select_tb (s : State) (x : Option Port) :
    (s.select x).tb.timeSet = s.tb.timeSet ∧ (s.select x).tb.day = s.tb.day ∧
      (s.select x).tb.sec = s.tb.sec ∧ (s.select x).tb.minLen = s.tb.minLen ∧
      (s.select x).tb.handed = s.tb.handed ∧ (s.select x).tb.freeSec = s.tb.freeSec ∧
      (s.select x).tb.freeMin = s.tb.freeMin ∧ (s.select x).tb.source = s.tb.source ∧
      (s.select x).tb.trim = s.tb.trim ∧ (s.select x).tb.trimValid = s.tb.trimValid ∧
      (s.select x).tb.k = s.tb.k ∧ (s.select x).tb.corr = s.tb.corr ∧
      (s.select x).tb.slewing = s.tb.slewing ∧ (s.select x).tb.lastCorr = s.tb.lastCorr ∧
      (s.select x).tb.lastSlew = s.tb.lastSlew ∧ (s.select x).tb.edgeAt = s.tb.edgeAt ∧
      (s.select x).tb.edgeMade = s.tb.edgeMade ∧ (s.select x).tb.length = s.tb.length ∧
      (s.select x).tb.pendingStep = s.tb.pendingStep := by
  simp [State.select]

@[simp] theorem State.portsMoved_tb (s : State) (s0 : State) :
    (s0.portsMoved s).tb.timeSet = s.tb.timeSet ∧ (s0.portsMoved s).tb.day = s.tb.day ∧
      (s0.portsMoved s).tb.sec = s.tb.sec ∧ (s0.portsMoved s).tb.minLen = s.tb.minLen ∧
      (s0.portsMoved s).tb.handed = s.tb.handed ∧ (s0.portsMoved s).tb.freeSec = s.tb.freeSec ∧
      (s0.portsMoved s).tb.freeMin = s.tb.freeMin ∧ (s0.portsMoved s).tb.source = s.tb.source ∧
      (s0.portsMoved s).tb.trim = s.tb.trim ∧ (s0.portsMoved s).tb.trimValid = s.tb.trimValid ∧
      (s0.portsMoved s).tb.k = s.tb.k ∧ (s0.portsMoved s).tb.corr = s.tb.corr ∧
      (s0.portsMoved s).tb.slewing = s.tb.slewing ∧ (s0.portsMoved s).tb.lastCorr = s.tb.lastCorr ∧
      (s0.portsMoved s).tb.lastSlew = s.tb.lastSlew ∧ (s0.portsMoved s).tb.edgeAt = s.tb.edgeAt ∧
      (s0.portsMoved s).tb.edgeMade = s.tb.edgeMade ∧ (s0.portsMoved s).tb.length = s.tb.length ∧
      (s0.portsMoved s).tb.pendingStep = s.tb.pendingStep := by
  simp [State.portsMoved]

@[simp] theorem State.correctOpen_tb (s : State) (p : Port) :
    (s.correctOpen p).tb.timeSet = s.tb.timeSet ∧ (s.correctOpen p).tb.day = s.tb.day ∧
      (s.correctOpen p).tb.sec = s.tb.sec ∧ (s.correctOpen p).tb.minLen = s.tb.minLen ∧
      (s.correctOpen p).tb.handed = s.tb.handed ∧ (s.correctOpen p).tb.freeSec = s.tb.freeSec ∧
      (s.correctOpen p).tb.freeMin = s.tb.freeMin ∧ (s.correctOpen p).tb.disc = s.tb.disc ∧
      (s.correctOpen p).tb.holdAge = s.tb.holdAge ∧ (s.correctOpen p).tb.source = s.tb.source ∧
      (s.correctOpen p).tb.trim = s.tb.trim ∧ (s.correctOpen p).tb.trimValid = s.tb.trimValid ∧
      (s.correctOpen p).tb.k = s.tb.k ∧ (s.correctOpen p).tb.winCount = s.tb.winCount ∧
      (s.correctOpen p).tb.winSum = s.tb.winSum ∧ (s.correctOpen p).tb.begunLocked = s.tb.begunLocked ∧
      (s.correctOpen p).tb.edgeAt = s.tb.edgeAt ∧ (s.correctOpen p).tb.edgeMade = s.tb.edgeMade ∧
      (s.correctOpen p).tb.stepWaiting = s.tb.stepWaiting ∧ (s.correctOpen p).tb.acq = s.tb.acq ∧
      (s.correctOpen p).tb.pendingStep = s.tb.pendingStep := by
  refine foldl_keeps (P := fun t : State => t.tb.timeSet = s.tb.timeSet ∧ t.tb.day = s.tb.day ∧
      t.tb.sec = s.tb.sec ∧ t.tb.minLen = s.tb.minLen ∧
      t.tb.handed = s.tb.handed ∧ t.tb.freeSec = s.tb.freeSec ∧
      t.tb.freeMin = s.tb.freeMin ∧ t.tb.disc = s.tb.disc ∧
      t.tb.holdAge = s.tb.holdAge ∧ t.tb.source = s.tb.source ∧
      t.tb.trim = s.tb.trim ∧ t.tb.trimValid = s.tb.trimValid ∧
      t.tb.k = s.tb.k ∧ t.tb.winCount = s.tb.winCount ∧
      t.tb.winSum = s.tb.winSum ∧ t.tb.begunLocked = s.tb.begunLocked ∧
      t.tb.edgeAt = s.tb.edgeAt ∧ t.tb.edgeMade = s.tb.edgeMade ∧
      t.tb.stepWaiting = s.tb.stepWaiting ∧ t.tb.acq = s.tb.acq ∧
      t.tb.pendingStep = s.tb.pendingStep) ?_ _ _ ?_
  · intro t u h; simpa using h
  · simp

/-- Slewing on entry is a correction (R33). -/
@[simp] theorem State.slewOnEntry_tb (s : State) (s0 : State) (known : Port → Bool) :
    (s0.slewOnEntry s known).tb.timeSet = s.tb.timeSet ∧ (s0.slewOnEntry s known).tb.day = s.tb.day ∧
      (s0.slewOnEntry s known).tb.sec = s.tb.sec ∧ (s0.slewOnEntry s known).tb.minLen = s.tb.minLen ∧
      (s0.slewOnEntry s known).tb.handed = s.tb.handed ∧ (s0.slewOnEntry s known).tb.freeSec = s.tb.freeSec ∧
      (s0.slewOnEntry s known).tb.freeMin = s.tb.freeMin ∧ (s0.slewOnEntry s known).tb.disc = s.tb.disc ∧
      (s0.slewOnEntry s known).tb.holdAge = s.tb.holdAge ∧ (s0.slewOnEntry s known).tb.source = s.tb.source ∧
      (s0.slewOnEntry s known).tb.trim = s.tb.trim ∧ (s0.slewOnEntry s known).tb.trimValid = s.tb.trimValid ∧
      (s0.slewOnEntry s known).tb.k = s.tb.k ∧ (s0.slewOnEntry s known).tb.winCount = s.tb.winCount ∧
      (s0.slewOnEntry s known).tb.winSum = s.tb.winSum ∧ (s0.slewOnEntry s known).tb.begunLocked = s.tb.begunLocked ∧
      (s0.slewOnEntry s known).tb.edgeAt = s.tb.edgeAt ∧ (s0.slewOnEntry s known).tb.edgeMade = s.tb.edgeMade ∧
      (s0.slewOnEntry s known).tb.stepWaiting = s.tb.stepWaiting ∧ (s0.slewOnEntry s known).tb.acq = s.tb.acq ∧
      (s0.slewOnEntry s known).tb.pendingStep = s.tb.pendingStep := by
  simp only [State.slewOnEntry]; repeat' split
  all_goals simp

@[simp] theorem State.pulsesAtEdge_tb (s : State) (kind : EdgeKind) :
    (s.pulsesAtEdge kind).tb.timeSet = s.tb.timeSet ∧ (s.pulsesAtEdge kind).tb.day = s.tb.day ∧
      (s.pulsesAtEdge kind).tb.sec = s.tb.sec ∧ (s.pulsesAtEdge kind).tb.minLen = s.tb.minLen ∧
      (s.pulsesAtEdge kind).tb.handed = s.tb.handed ∧ (s.pulsesAtEdge kind).tb.freeSec = s.tb.freeSec ∧
      (s.pulsesAtEdge kind).tb.freeMin = s.tb.freeMin ∧ (s.pulsesAtEdge kind).tb.source = s.tb.source ∧
      (s.pulsesAtEdge kind).tb.trim = s.tb.trim ∧ (s.pulsesAtEdge kind).tb.trimValid = s.tb.trimValid ∧
      (s.pulsesAtEdge kind).tb.k = s.tb.k ∧ (s.pulsesAtEdge kind).tb.edgeAt = s.tb.edgeAt ∧
      (s.pulsesAtEdge kind).tb.edgeMade = s.tb.edgeMade ∧ (s.pulsesAtEdge kind).tb.pendingStep = s.tb.pendingStep := by
  simp only [State.pulsesAtEdge]; repeat' split
  all_goals simp

@[simp] theorem State.markBegun_tb (s : State) :
    (s.markBegun).tb.timeSet = s.tb.timeSet ∧ (s.markBegun).tb.day = s.tb.day ∧
      (s.markBegun).tb.sec = s.tb.sec ∧ (s.markBegun).tb.minLen = s.tb.minLen ∧
      (s.markBegun).tb.handed = s.tb.handed ∧ (s.markBegun).tb.freeSec = s.tb.freeSec ∧
      (s.markBegun).tb.freeMin = s.tb.freeMin ∧ (s.markBegun).tb.disc = s.tb.disc ∧
      (s.markBegun).tb.holdAge = s.tb.holdAge ∧ (s.markBegun).tb.source = s.tb.source ∧
      (s.markBegun).tb.trim = s.tb.trim ∧ (s.markBegun).tb.trimValid = s.tb.trimValid ∧
      (s.markBegun).tb.k = s.tb.k ∧ (s.markBegun).tb.winCount = s.tb.winCount ∧
      (s.markBegun).tb.winSum = s.tb.winSum ∧ (s.markBegun).tb.corr = s.tb.corr ∧
      (s.markBegun).tb.slewing = s.tb.slewing ∧ (s.markBegun).tb.lastCorr = s.tb.lastCorr ∧
      (s.markBegun).tb.lastSlew = s.tb.lastSlew ∧ (s.markBegun).tb.edgeAt = s.tb.edgeAt ∧
      (s.markBegun).tb.edgeMade = s.tb.edgeMade ∧ (s.markBegun).tb.length = s.tb.length ∧
      (s.markBegun).tb.stepWaiting = s.tb.stepWaiting ∧ (s.markBegun).tb.acq = s.tb.acq ∧
      (s.markBegun).tb.pendingStep = s.tb.pendingStep := by
  simp [State.markBegun]

@[simp] theorem State.changeMode_tb (s : State) (m : Mode) :
    (s.changeMode m).tb.timeSet = s.tb.timeSet ∧ (s.changeMode m).tb.day = s.tb.day ∧
      (s.changeMode m).tb.sec = s.tb.sec ∧ (s.changeMode m).tb.minLen = s.tb.minLen ∧
      (s.changeMode m).tb.handed = s.tb.handed ∧ (s.changeMode m).tb.freeSec = s.tb.freeSec ∧
      (s.changeMode m).tb.freeMin = s.tb.freeMin ∧ (s.changeMode m).tb.disc = s.tb.disc ∧
      (s.changeMode m).tb.holdAge = s.tb.holdAge ∧ (s.changeMode m).tb.source = s.tb.source ∧
      (s.changeMode m).tb.trim = s.tb.trim ∧ (s.changeMode m).tb.trimValid = s.tb.trimValid ∧
      (s.changeMode m).tb.k = s.tb.k ∧ (s.changeMode m).tb.winCount = s.tb.winCount ∧
      (s.changeMode m).tb.winSum = s.tb.winSum ∧ (s.changeMode m).tb.begunLocked = s.tb.begunLocked ∧
      (s.changeMode m).tb.corr = s.tb.corr ∧ (s.changeMode m).tb.slewing = s.tb.slewing ∧
      (s.changeMode m).tb.lastCorr = s.tb.lastCorr ∧ (s.changeMode m).tb.lastSlew = s.tb.lastSlew ∧
      (s.changeMode m).tb.edgeAt = s.tb.edgeAt ∧ (s.changeMode m).tb.edgeMade = s.tb.edgeMade ∧
      (s.changeMode m).tb.length = s.tb.length ∧ (s.changeMode m).tb.acq = s.tb.acq ∧
      (s.changeMode m).tb.pendingStep = s.tb.pendingStep := by
  simp only [State.changeMode]; repeat' split
  all_goals simp

@[simp] theorem State.setPendingMode_tb (s : State) (m : Mode) :
    (s.setPendingMode m).tb.timeSet = s.tb.timeSet ∧ (s.setPendingMode m).tb.day = s.tb.day ∧
      (s.setPendingMode m).tb.sec = s.tb.sec ∧ (s.setPendingMode m).tb.minLen = s.tb.minLen ∧
      (s.setPendingMode m).tb.handed = s.tb.handed ∧ (s.setPendingMode m).tb.freeSec = s.tb.freeSec ∧
      (s.setPendingMode m).tb.freeMin = s.tb.freeMin ∧ (s.setPendingMode m).tb.disc = s.tb.disc ∧
      (s.setPendingMode m).tb.holdAge = s.tb.holdAge ∧ (s.setPendingMode m).tb.source = s.tb.source ∧
      (s.setPendingMode m).tb.trim = s.tb.trim ∧ (s.setPendingMode m).tb.trimValid = s.tb.trimValid ∧
      (s.setPendingMode m).tb.k = s.tb.k ∧ (s.setPendingMode m).tb.winCount = s.tb.winCount ∧
      (s.setPendingMode m).tb.winSum = s.tb.winSum ∧ (s.setPendingMode m).tb.begunLocked = s.tb.begunLocked ∧
      (s.setPendingMode m).tb.corr = s.tb.corr ∧ (s.setPendingMode m).tb.slewing = s.tb.slewing ∧
      (s.setPendingMode m).tb.lastCorr = s.tb.lastCorr ∧ (s.setPendingMode m).tb.lastSlew = s.tb.lastSlew ∧
      (s.setPendingMode m).tb.edgeAt = s.tb.edgeAt ∧ (s.setPendingMode m).tb.edgeMade = s.tb.edgeMade ∧
      (s.setPendingMode m).tb.length = s.tb.length ∧ (s.setPendingMode m).tb.acq = s.tb.acq ∧
      (s.setPendingMode m).tb.pendingStep = s.tb.pendingStep := by
  simp only [State.setPendingMode]; split <;> simp

@[simp] theorem State.kill_tb (s : State) :
    (s.kill).tb.timeSet = s.tb.timeSet ∧ (s.kill).tb.day = s.tb.day ∧
      (s.kill).tb.sec = s.tb.sec ∧ (s.kill).tb.minLen = s.tb.minLen ∧
      (s.kill).tb.handed = s.tb.handed ∧ (s.kill).tb.freeSec = s.tb.freeSec ∧
      (s.kill).tb.freeMin = s.tb.freeMin ∧ (s.kill).tb.disc = s.tb.disc ∧
      (s.kill).tb.holdAge = s.tb.holdAge ∧ (s.kill).tb.source = s.tb.source ∧
      (s.kill).tb.trim = s.tb.trim ∧ (s.kill).tb.trimValid = s.tb.trimValid ∧
      (s.kill).tb.k = s.tb.k ∧ (s.kill).tb.winCount = s.tb.winCount ∧
      (s.kill).tb.winSum = s.tb.winSum ∧ (s.kill).tb.begunLocked = s.tb.begunLocked ∧
      (s.kill).tb.corr = s.tb.corr ∧ (s.kill).tb.slewing = s.tb.slewing ∧
      (s.kill).tb.lastCorr = s.tb.lastCorr ∧ (s.kill).tb.lastSlew = s.tb.lastSlew ∧
      (s.kill).tb.edgeAt = s.tb.edgeAt ∧ (s.kill).tb.edgeMade = s.tb.edgeMade ∧
      (s.kill).tb.length = s.tb.length ∧ (s.kill).tb.acq = s.tb.acq ∧
      (s.kill).tb.pendingStep = s.tb.pendingStep := by
  simp [State.kill]

@[simp] theorem State.boundaryPending_tb (s : State) (m : Mode) :
    (s.boundaryPending m).tb.timeSet = s.tb.timeSet ∧ (s.boundaryPending m).tb.day = s.tb.day ∧
      (s.boundaryPending m).tb.sec = s.tb.sec ∧ (s.boundaryPending m).tb.minLen = s.tb.minLen ∧
      (s.boundaryPending m).tb.handed = s.tb.handed ∧ (s.boundaryPending m).tb.freeSec = s.tb.freeSec ∧
      (s.boundaryPending m).tb.freeMin = s.tb.freeMin ∧ (s.boundaryPending m).tb.disc = s.tb.disc ∧
      (s.boundaryPending m).tb.holdAge = s.tb.holdAge ∧ (s.boundaryPending m).tb.source = s.tb.source ∧
      (s.boundaryPending m).tb.trim = s.tb.trim ∧ (s.boundaryPending m).tb.trimValid = s.tb.trimValid ∧
      (s.boundaryPending m).tb.k = s.tb.k ∧ (s.boundaryPending m).tb.winCount = s.tb.winCount ∧
      (s.boundaryPending m).tb.winSum = s.tb.winSum ∧ (s.boundaryPending m).tb.begunLocked = s.tb.begunLocked ∧
      (s.boundaryPending m).tb.corr = s.tb.corr ∧ (s.boundaryPending m).tb.slewing = s.tb.slewing ∧
      (s.boundaryPending m).tb.lastCorr = s.tb.lastCorr ∧ (s.boundaryPending m).tb.lastSlew = s.tb.lastSlew ∧
      (s.boundaryPending m).tb.edgeAt = s.tb.edgeAt ∧ (s.boundaryPending m).tb.edgeMade = s.tb.edgeMade ∧
      (s.boundaryPending m).tb.length = s.tb.length ∧ (s.boundaryPending m).tb.acq = s.tb.acq ∧
      (s.boundaryPending m).tb.pendingStep = s.tb.pendingStep := by
  simp only [State.boundaryPending]; split <;> simp

@[simp] theorem State.boundaryOffAir_tb (s : State) (r : OffReq) :
    (s.boundaryOffAir r).tb.timeSet = s.tb.timeSet ∧ (s.boundaryOffAir r).tb.day = s.tb.day ∧
      (s.boundaryOffAir r).tb.sec = s.tb.sec ∧ (s.boundaryOffAir r).tb.minLen = s.tb.minLen ∧
      (s.boundaryOffAir r).tb.handed = s.tb.handed ∧ (s.boundaryOffAir r).tb.freeSec = s.tb.freeSec ∧
      (s.boundaryOffAir r).tb.freeMin = s.tb.freeMin ∧ (s.boundaryOffAir r).tb.disc = s.tb.disc ∧
      (s.boundaryOffAir r).tb.holdAge = s.tb.holdAge ∧ (s.boundaryOffAir r).tb.source = s.tb.source ∧
      (s.boundaryOffAir r).tb.trim = s.tb.trim ∧ (s.boundaryOffAir r).tb.trimValid = s.tb.trimValid ∧
      (s.boundaryOffAir r).tb.k = s.tb.k ∧ (s.boundaryOffAir r).tb.winCount = s.tb.winCount ∧
      (s.boundaryOffAir r).tb.winSum = s.tb.winSum ∧ (s.boundaryOffAir r).tb.begunLocked = s.tb.begunLocked ∧
      (s.boundaryOffAir r).tb.corr = s.tb.corr ∧ (s.boundaryOffAir r).tb.slewing = s.tb.slewing ∧
      (s.boundaryOffAir r).tb.lastCorr = s.tb.lastCorr ∧ (s.boundaryOffAir r).tb.lastSlew = s.tb.lastSlew ∧
      (s.boundaryOffAir r).tb.edgeAt = s.tb.edgeAt ∧ (s.boundaryOffAir r).tb.edgeMade = s.tb.edgeMade ∧
      (s.boundaryOffAir r).tb.length = s.tb.length ∧ (s.boundaryOffAir r).tb.acq = s.tb.acq ∧
      (s.boundaryOffAir r).tb.pendingStep = s.tb.pendingStep := by
  simp only [State.boundaryOffAir]; split <;> simp

@[simp] theorem State.boundaryResume_tb (s : State) (m : Maint) :
    (s.boundaryResume m).tb.timeSet = s.tb.timeSet ∧ (s.boundaryResume m).tb.day = s.tb.day ∧
      (s.boundaryResume m).tb.sec = s.tb.sec ∧ (s.boundaryResume m).tb.minLen = s.tb.minLen ∧
      (s.boundaryResume m).tb.handed = s.tb.handed ∧ (s.boundaryResume m).tb.freeSec = s.tb.freeSec ∧
      (s.boundaryResume m).tb.freeMin = s.tb.freeMin ∧ (s.boundaryResume m).tb.disc = s.tb.disc ∧
      (s.boundaryResume m).tb.holdAge = s.tb.holdAge ∧ (s.boundaryResume m).tb.source = s.tb.source ∧
      (s.boundaryResume m).tb.trim = s.tb.trim ∧ (s.boundaryResume m).tb.trimValid = s.tb.trimValid ∧
      (s.boundaryResume m).tb.k = s.tb.k ∧ (s.boundaryResume m).tb.winCount = s.tb.winCount ∧
      (s.boundaryResume m).tb.winSum = s.tb.winSum ∧ (s.boundaryResume m).tb.begunLocked = s.tb.begunLocked ∧
      (s.boundaryResume m).tb.corr = s.tb.corr ∧ (s.boundaryResume m).tb.slewing = s.tb.slewing ∧
      (s.boundaryResume m).tb.lastCorr = s.tb.lastCorr ∧ (s.boundaryResume m).tb.lastSlew = s.tb.lastSlew ∧
      (s.boundaryResume m).tb.edgeAt = s.tb.edgeAt ∧ (s.boundaryResume m).tb.edgeMade = s.tb.edgeMade ∧
      (s.boundaryResume m).tb.length = s.tb.length ∧ (s.boundaryResume m).tb.acq = s.tb.acq ∧
      (s.boundaryResume m).tb.pendingStep = s.tb.pendingStep := by
  unfold State.boundaryResume; repeat' split
  all_goals simp

@[simp] theorem State.boundaryMode_tb (s : State) :
    (s.boundaryMode).tb.timeSet = s.tb.timeSet ∧ (s.boundaryMode).tb.day = s.tb.day ∧
      (s.boundaryMode).tb.sec = s.tb.sec ∧ (s.boundaryMode).tb.minLen = s.tb.minLen ∧
      (s.boundaryMode).tb.handed = s.tb.handed ∧ (s.boundaryMode).tb.freeSec = s.tb.freeSec ∧
      (s.boundaryMode).tb.freeMin = s.tb.freeMin ∧ (s.boundaryMode).tb.disc = s.tb.disc ∧
      (s.boundaryMode).tb.holdAge = s.tb.holdAge ∧ (s.boundaryMode).tb.source = s.tb.source ∧
      (s.boundaryMode).tb.trim = s.tb.trim ∧ (s.boundaryMode).tb.trimValid = s.tb.trimValid ∧
      (s.boundaryMode).tb.k = s.tb.k ∧ (s.boundaryMode).tb.winCount = s.tb.winCount ∧
      (s.boundaryMode).tb.winSum = s.tb.winSum ∧ (s.boundaryMode).tb.begunLocked = s.tb.begunLocked ∧
      (s.boundaryMode).tb.corr = s.tb.corr ∧ (s.boundaryMode).tb.slewing = s.tb.slewing ∧
      (s.boundaryMode).tb.lastCorr = s.tb.lastCorr ∧ (s.boundaryMode).tb.lastSlew = s.tb.lastSlew ∧
      (s.boundaryMode).tb.edgeAt = s.tb.edgeAt ∧ (s.boundaryMode).tb.edgeMade = s.tb.edgeMade ∧
      (s.boundaryMode).tb.length = s.tb.length ∧ (s.boundaryMode).tb.acq = s.tb.acq ∧
      (s.boundaryMode).tb.pendingStep = s.tb.pendingStep := by
  unfold State.boundaryMode; split <;> simp

/-- The keyer's part of a boundary can only abandon a phase step (R34). -/
@[simp] theorem State.keyerBoundary_tb (s : State) :
    (s.keyerBoundary).tb.timeSet = s.tb.timeSet ∧ (s.keyerBoundary).tb.day = s.tb.day ∧
      (s.keyerBoundary).tb.sec = s.tb.sec ∧ (s.keyerBoundary).tb.minLen = s.tb.minLen ∧
      (s.keyerBoundary).tb.handed = s.tb.handed ∧ (s.keyerBoundary).tb.freeSec = s.tb.freeSec ∧
      (s.keyerBoundary).tb.freeMin = s.tb.freeMin ∧ (s.keyerBoundary).tb.disc = s.tb.disc ∧
      (s.keyerBoundary).tb.holdAge = s.tb.holdAge ∧ (s.keyerBoundary).tb.source = s.tb.source ∧
      (s.keyerBoundary).tb.trim = s.tb.trim ∧ (s.keyerBoundary).tb.trimValid = s.tb.trimValid ∧
      (s.keyerBoundary).tb.k = s.tb.k ∧ (s.keyerBoundary).tb.winCount = s.tb.winCount ∧
      (s.keyerBoundary).tb.winSum = s.tb.winSum ∧ (s.keyerBoundary).tb.begunLocked = s.tb.begunLocked ∧
      (s.keyerBoundary).tb.corr = s.tb.corr ∧ (s.keyerBoundary).tb.slewing = s.tb.slewing ∧
      (s.keyerBoundary).tb.lastCorr = s.tb.lastCorr ∧ (s.keyerBoundary).tb.lastSlew = s.tb.lastSlew ∧
      (s.keyerBoundary).tb.edgeAt = s.tb.edgeAt ∧ (s.keyerBoundary).tb.edgeMade = s.tb.edgeMade ∧
      (s.keyerBoundary).tb.length = s.tb.length ∧ (s.keyerBoundary).tb.acq = s.tb.acq ∧
      (s.keyerBoundary).tb.pendingStep = s.tb.pendingStep := by
  simp [State.keyerBoundary]

@[simp] theorem State.minuteBoundary_tb (s : State) :
    (s.minuteBoundary).tb.timeSet = s.tb.timeSet ∧ (s.minuteBoundary).tb.day = s.tb.day ∧
      (s.minuteBoundary).tb.sec = s.tb.sec ∧ (s.minuteBoundary).tb.minLen = s.tb.minLen ∧
      (s.minuteBoundary).tb.handed = s.tb.handed ∧ (s.minuteBoundary).tb.freeSec = s.tb.freeSec ∧
      (s.minuteBoundary).tb.freeMin = s.tb.freeMin ∧ (s.minuteBoundary).tb.disc = s.tb.disc ∧
      (s.minuteBoundary).tb.holdAge = s.tb.holdAge ∧ (s.minuteBoundary).tb.source = s.tb.source ∧
      (s.minuteBoundary).tb.trim = s.tb.trim ∧ (s.minuteBoundary).tb.trimValid = s.tb.trimValid ∧
      (s.minuteBoundary).tb.k = s.tb.k ∧ (s.minuteBoundary).tb.winCount = s.tb.winCount ∧
      (s.minuteBoundary).tb.winSum = s.tb.winSum ∧ (s.minuteBoundary).tb.begunLocked = s.tb.begunLocked ∧
      (s.minuteBoundary).tb.corr = s.tb.corr ∧ (s.minuteBoundary).tb.slewing = s.tb.slewing ∧
      (s.minuteBoundary).tb.lastCorr = s.tb.lastCorr ∧ (s.minuteBoundary).tb.lastSlew = s.tb.lastSlew ∧
      (s.minuteBoundary).tb.edgeAt = s.tb.edgeAt ∧ (s.minuteBoundary).tb.edgeMade = s.tb.edgeMade ∧
      (s.minuteBoundary).tb.length = s.tb.length ∧ (s.minuteBoundary).tb.acq = s.tb.acq ∧
      (s.minuteBoundary).tb.pendingStep = s.tb.pendingStep := by
  simp [State.minuteBoundary]

@[simp] theorem State.handOver_tb (s : State) (f : Nat) :
    (s.handOver f).tb.timeSet = s.tb.timeSet ∧ (s.handOver f).tb.day = s.tb.day ∧
      (s.handOver f).tb.sec = s.tb.sec ∧ (s.handOver f).tb.minLen = s.tb.minLen ∧
      (s.handOver f).tb.freeSec = s.tb.freeSec ∧ (s.handOver f).tb.freeMin = s.tb.freeMin ∧
      (s.handOver f).tb.disc = s.tb.disc ∧ (s.handOver f).tb.holdAge = s.tb.holdAge ∧
      (s.handOver f).tb.source = s.tb.source ∧ (s.handOver f).tb.trim = s.tb.trim ∧
      (s.handOver f).tb.trimValid = s.tb.trimValid ∧ (s.handOver f).tb.k = s.tb.k ∧
      (s.handOver f).tb.winCount = s.tb.winCount ∧ (s.handOver f).tb.winSum = s.tb.winSum ∧
      (s.handOver f).tb.begunLocked = s.tb.begunLocked ∧ (s.handOver f).tb.corr = s.tb.corr ∧
      (s.handOver f).tb.slewing = s.tb.slewing ∧ (s.handOver f).tb.lastCorr = s.tb.lastCorr ∧
      (s.handOver f).tb.lastSlew = s.tb.lastSlew ∧ (s.handOver f).tb.edgeAt = s.tb.edgeAt ∧
      (s.handOver f).tb.edgeMade = s.tb.edgeMade ∧ (s.handOver f).tb.length = s.tb.length ∧
      (s.handOver f).tb.stepWaiting = s.tb.stepWaiting ∧ (s.handOver f).tb.acq = s.tb.acq ∧
      (s.handOver f).tb.pendingStep = s.tb.pendingStep := by
  simp [State.handOver]

/-- A composition hands over a minute length alone (R101). -/
@[simp] theorem State.composition_tb (s : State) :
    (s.composition).tb.timeSet = s.tb.timeSet ∧ (s.composition).tb.day = s.tb.day ∧
      (s.composition).tb.sec = s.tb.sec ∧ (s.composition).tb.minLen = s.tb.minLen ∧
      (s.composition).tb.freeSec = s.tb.freeSec ∧ (s.composition).tb.freeMin = s.tb.freeMin ∧
      (s.composition).tb.disc = s.tb.disc ∧ (s.composition).tb.holdAge = s.tb.holdAge ∧
      (s.composition).tb.source = s.tb.source ∧ (s.composition).tb.trim = s.tb.trim ∧
      (s.composition).tb.trimValid = s.tb.trimValid ∧ (s.composition).tb.k = s.tb.k ∧
      (s.composition).tb.winCount = s.tb.winCount ∧ (s.composition).tb.winSum = s.tb.winSum ∧
      (s.composition).tb.begunLocked = s.tb.begunLocked ∧ (s.composition).tb.corr = s.tb.corr ∧
      (s.composition).tb.slewing = s.tb.slewing ∧ (s.composition).tb.lastCorr = s.tb.lastCorr ∧
      (s.composition).tb.lastSlew = s.tb.lastSlew ∧ (s.composition).tb.edgeAt = s.tb.edgeAt ∧
      (s.composition).tb.edgeMade = s.tb.edgeMade ∧ (s.composition).tb.length = s.tb.length ∧
      (s.composition).tb.stepWaiting = s.tb.stepWaiting ∧ (s.composition).tb.acq = s.tb.acq ∧
      (s.composition).tb.pendingStep = s.tb.pendingStep := by
  simp [State.composition]

/-- What an edge leaves to be done after the timebase's own part. -/
@[simp] theorem State.edgeEffects_tb (s : State) (kind : EdgeKind) :
    (s.edgeEffects kind).tb.timeSet = s.tb.timeSet ∧ (s.edgeEffects kind).tb.day = s.tb.day ∧
      (s.edgeEffects kind).tb.sec = s.tb.sec ∧ (s.edgeEffects kind).tb.minLen = s.tb.minLen ∧
      (s.edgeEffects kind).tb.freeSec = s.tb.freeSec ∧ (s.edgeEffects kind).tb.freeMin = s.tb.freeMin ∧
      (s.edgeEffects kind).tb.source = s.tb.source ∧ (s.edgeEffects kind).tb.trim = s.tb.trim ∧
      (s.edgeEffects kind).tb.trimValid = s.tb.trimValid ∧ (s.edgeEffects kind).tb.k = s.tb.k ∧
      (s.edgeEffects kind).tb.edgeAt = s.tb.edgeAt ∧ (s.edgeEffects kind).tb.edgeMade = s.tb.edgeMade ∧
      (s.edgeEffects kind).tb.pendingStep = s.tb.pendingStep := by
  simp only [State.edgeEffects]; repeat' split
  all_goals simp

end Sys2Proof.Machine
end

