-- ==== Sys2Proof/Laws/Steering.lean ====
section
/-! SUPPORT. What keeps discipline, acquisition and phase step in agreement with the selection: the
timebase follows it at the end of each event, and a second edge keeps the agreement (R30..R37). -/

namespace Sys2Proof.Machine

/-- What following the selection takes for granted and leaves alone. -/
structure State.Followable (s : State) : Prop where
  ref1 : s.ref1.Enabled
  ref2 : s.ref2.Enabled
  unset : s.tb.timeSet = false → s.tb.disc = .free
  acq : s.tb.timeSet = true → s.tb.acq = none
  step : s.tb.stepWaiting = true → s.tb.disc = .locked ∧ s.key.nearTimeCode = false

theorem State.Followable.of_steered {s : State} (h : s.Steered) : State.Followable s :=
  ⟨h.ref1, h.ref2, h.unset, fun ht => by simpa [ht] using h.acquiring, h.step⟩

/-- The timebase agrees with the selection once it has followed it. -/
theorem State.follow_steered {s : State} (h : State.Followable s) (old) :
    (s.follow old).Steered := by
  obtain ⟨r1, r2, u, a, w⟩ := h
  unfold State.follow
  cases ht : s.tb.timeSet with
  | true =>
    simp
    cases hs : s.steering with
    | none =>
      simp
      split
      · rename_i hd
        refine ⟨r1, r2, ?_, ?_, ?_, ?_⟩
        · have e : State.steering { s with tb := s.tb.leaveLocked } = none := hs
          rw [e]; simp [Timebase.leaveLocked]; split <;> simp
        · simp [Timebase.leaveLocked, Timebase.emptyWindow, ht]
        · simp [Timebase.leaveLocked, Timebase.emptyWindow, ht, a ht]
        · simp [Timebase.leaveLocked]
      · rename_i hd
        exact ⟨r1, r2, by simp [hs, hd], u, by simp [ht, a ht], w⟩
    | some p =>
      simp
      split
      · rename_i hd
        exact ⟨r1, r2, by simp [hs, hd, ht], u, by simp [ht, a ht], w⟩
      · refine ⟨by simpa using r1, by simpa using r2, ?_, ?_, ?_, ?_⟩
        · have e : State.steering (s.enterLocked p) = some p := hs
          rw [e]; simp [State.enterLocked, Timebase.emptyWindow, ht]
        · simp [State.enterLocked, Timebase.emptyWindow, ht]
        · simp [State.enterLocked, Timebase.emptyWindow, ht, a ht]
        · simp [State.enterLocked, Timebase.emptyWindow]
  | false =>
    simp
    refine ⟨r1, r2, ?_, ?_, ?_, ?_⟩
    · simp [u ht, ht]
    · simp [u ht]
    · simp [ht]; rfl
    · intro hh; have := w hh; simp [u ht] at this

/-- `t` agrees with `s` in all that `State.Steered` looks at, but that a phase step may be abandoned. -/
structure State.SteersAlike (s t : State) : Prop where
  r1 : t.ref1.enable = s.ref1.enable ∧ t.ref1.st = s.ref1.st ∧
      (t.ref1.watch = none ∨ t.ref1.watch = s.ref1.watch ∨ t.ref1.st ≠ .disabled)
  r2 : t.ref2.enable = s.ref2.enable ∧ t.ref2.st = s.ref2.st ∧
      (t.ref2.watch = none ∨ t.ref2.watch = s.ref2.watch ∨ t.ref2.st ≠ .disabled)
  sel : t.sel.selection = s.sel.selection
  tb : t.tb.timeSet = s.tb.timeSet ∧ t.tb.disc = s.tb.disc ∧ t.tb.acq = s.tb.acq
  step : t.tb.stepWaiting = true → s.tb.stepWaiting = true ∧ (s.key.nearTimeCode = false →
      t.key.nearTimeCode = false)

theorem RefPort.Enabled.carry {r r' : RefPort} (h : r.Enabled) (a : r'.enable = r.enable)
    (b : r'.st = r.st) (c : r'.watch = none ∨ r'.watch = r.watch ∨ r'.st ≠ .disabled) : r'.Enabled := by
  obtain ⟨h1, h2⟩ := h
  refine ⟨by rw [a, b]; exact h1, fun hd => ?_⟩
  rcases c with c | c | c
  · exact c
  · rw [c]; exact h2 (by rw [← b]; exact hd)
  · exact absurd hd c

theorem State.SteersAlike.steering {s t : State} (h : State.SteersAlike s t) :
    t.steering = s.steering := by
  have e : ∀ p, (t.port p).st = (s.port p).st := by
    intro p; cases p
    · exact h.r1.2.1
    · exact h.r2.2.1
  have q : ∀ p, t.qualified p = s.qualified p := by
    intro p; unfold State.qualified; rw [e p]
  simp [State.steering, h.sel, q]

theorem State.SteersAlike.steered {s t : State} (h : State.SteersAlike s t) (hs : s.Steered) :
    t.Steered := by
  refine ⟨RefPort.Enabled.carry hs.ref1 h.r1.1 h.r1.2.1 h.r1.2.2,
      RefPort.Enabled.carry hs.ref2 h.r2.1 h.r2.2.1 h.r2.2.2, ?_, ?_, ?_, ?_⟩
  · rw [h.steering, h.tb.1, h.tb.2.1]; exact hs.locked
  · rw [h.tb.1, h.tb.2.1]; exact hs.unset
  · rw [h.steering, h.tb.1, h.tb.2.2]; exact hs.acquiring
  · intro hw; have := h.step hw; have h2 := hs.step this.1; rw [h.tb.2.1]; exact ⟨h2.1, this.2 h2.2⟩

theorem State.SteersAlike.pre {s t : State} (h : State.SteersAlike s t) (hs : State.Followable s) :
    State.Followable t := by
  refine ⟨RefPort.Enabled.carry hs.ref1 h.r1.1 h.r1.2.1 h.r1.2.2,
      RefPort.Enabled.carry hs.ref2 h.r2.1 h.r2.2.1 h.r2.2.2, ?_, ?_, ?_⟩
  · rw [h.tb.1, h.tb.2.1]; exact hs.unset
  · rw [h.tb.1, h.tb.2.2]; exact hs.acq
  · intro hw; have := h.step hw; have h2 := hs.step this.1; rw [h.tb.2.1]; exact ⟨h2.1, this.2 h2.2⟩

/-- It agrees after a selection. -/
theorem State.select_steered {s : State} (h : State.Followable s) (x) : (s.select x).Steered := by
  unfold State.select
  apply State.follow_steered
  refine State.SteersAlike.pre (s := { s with sel := {s.sel with selection := x}}) ?_ ⟨h.1, h.2,
      h.3, h.4, h.5⟩
  constructor <;> simp

/-- It agrees after the ports have moved. -/
theorem State.portsMoved_steered {s : State} (h : State.Followable s) (s0 : State) :
    (s0.portsMoved s).Steered := by
  unfold State.portsMoved
  apply State.select_steered
  exact ⟨by simpa using h.1, by simpa using h.2, by simpa using h.3, by simpa using h.4,
      by simpa using h.5⟩

/-- The judgement of a pulse leaves the enable and the watch, and never enters or leaves DISABLED. -/
theorem RefPort.judge_enabled (r : RefPort) (q u m) : (r.judge q u m).enable = r.enable ∧
    (r.judge q u m).watch = r.watch ∧ ((r.judge q u m).st = .disabled ↔ r.st = .disabled) := by
  unfold RefPort.judge
  cases h : r.st <;> simp only <;> repeat' split
  all_goals simp_all [RefPort.moveTo]

theorem RefPort.Enabled.keep {r r' : RefPort} (h : r.Enabled) (a : r'.enable = r.enable)
    (b : r'.st = .disabled ↔ r.st = .disabled) (c : r'.watch = r.watch) : r'.Enabled := by
  obtain ⟨h1, h2⟩ := h
  exact ⟨by rw [a, b]; exact h1, by rw [b, c]; exact h2⟩

theorem State.completePulse_followable {s : State} (h : State.Followable s) (p u o) :
    State.Followable (s.completePulse p u o) := by
  refine ⟨?_, ?_, by simpa using h.3, by simpa using h.4, by simpa using h.5⟩
  · cases p
    · have := RefPort.judge_enabled { s.port .p1 with
        lastOffset := o
        edgeOffset := some o } s.params u (s.mismatch u.label)
      simp [State.completePulse, State.setPort]
      exact RefPort.Enabled.keep h.1 (by simpa using this.1) this.2.2 this.2.1
    · simp [State.completePulse, State.setPort]; exact h.1
  · cases p
    · simp [State.completePulse, State.setPort]; exact h.2
    · have := RefPort.judge_enabled { s.port .p2 with
        lastOffset := o
        edgeOffset := some o } s.params u (s.mismatch u.label)
      simp [State.completePulse, State.setPort]
      exact RefPort.Enabled.keep h.2 (by simpa using this.1) this.2.2 this.2.1

theorem State.completeOpen_followable {s : State} (h : State.Followable s) (p) : State.Followable
    (s.completeOpen p) := by
  unfold State.completeOpen
  refine foldl_keeps (P := State.Followable)
      (fun t u ht => State.completePulse_followable ht p u _) _ _ ?_
  cases p
  · exact ⟨RefPort.Enabled.keep h.1 rfl Iff.rfl rfl, h.2, h.3, h.4, h.5⟩
  · exact ⟨h.1, RefPort.Enabled.keep h.2 rfl Iff.rfl rfl, h.3, h.4, h.5⟩

theorem State.Followable.carry {s t : State} (h : State.Followable s) (a : t.ref1 = s.ref1)
    (b : t.ref2 = s.ref2) (c : t.tb.timeSet = s.tb.timeSet) (d : t.tb.disc = s.tb.disc)
    (e : t.tb.acq = s.tb.acq) (f : t.tb.stepWaiting = s.tb.stepWaiting) (g : t.key = s.key) :
    State.Followable t := by
  refine ⟨by rw [a]; exact h.1, by rw [b]; exact h.2, ?_, ?_, ?_⟩
  · rw [c, d]; exact h.3
  · rw [c, e]; exact h.4
  · rw [d, f, g]; exact h.5

theorem State.correctOpen_followable {s : State} (h : State.Followable s) (p) : State.Followable
    (s.correctOpen p) :=
  State.Followable.carry h (by simp) (by simp) (by simp) (by simp) (by simp) (by simp) (by simp)

theorem State.judgeAgreement_steersAlike (s : State) : State.SteersAlike s s.judgeAgreement := by
  have e : s.judgeAgreement.sel.selection = s.sel.selection := by
    unfold State.judgeAgreement; repeat' split
    all_goals rfl
  exact ⟨by simp, by simp, e, by simp, by simp⟩

theorem State.slewOnEntry_steersAlike (s0 s : State) (known) :
    State.SteersAlike s (s0.slewOnEntry s known) := by
  constructor <;> simp

/-- It agrees after the pulses paired with an edge. -/
theorem State.pulsesAtEdge_steered {s : State} (h : State.Followable s) (k) :
    (s.pulsesAtEdge k).Steered := by
  simp only [State.pulsesAtEdge]
  repeat' split
  all_goals try apply (State.judgeAgreement_steersAlike _).steered
  all_goals try apply (State.slewOnEntry_steersAlike _ _ _).steered
  all_goals (refine State.portsMoved_steered (State.completeOpen_followable
      (State.completeOpen_followable ?_ _) _) _)
  all_goals first | exact
      State.correctOpen_followable (State.correctOpen_followable h _) _ | exact h

theorem Keyer.enter_near (k : Keyer) (m) : m ≠ .timeCode → (k.enter m).nearTimeCode = true →
    k.nearTimeCode = true := by
  intro h hp
  have hq : k.pendingMode = some .timeCode := by
    simp only [Keyer.enter, Keyer.nearTimeCode, h, decide_false, Bool.false_or] at hp
    exact of_decide_eq_true hp
  simp [Keyer.nearTimeCode, hq]

/-- A change of mode at most abandons a phase step. -/
theorem State.changeMode_steersAlike (s : State) (m) : State.SteersAlike s (s.changeMode m) := by
  refine ⟨by simp, by simp, by simp, by simp, ?_⟩
  simp only [State.changeMode]
  split
  · exact fun h => ⟨h, id⟩
  · split
    · simp [State.abandonStep]
    · rename_i h1 h2
      intro hw
      refine ⟨by simpa using hw, fun hn => ?_⟩
      have := Keyer.enter_near s.key m h2
      simp
      cases hh : (s.key.enter m).nearTimeCode
      · rfl
      · simp [this hh] at hn

theorem State.SteersAlike.refl (s : State) : State.SteersAlike s s := ⟨by simp, by simp, rfl,
    by simp, fun h => ⟨h, id⟩⟩
theorem State.SteersAlike.trans {a b c : State} (h : State.SteersAlike a b) (g :
    State.SteersAlike b c) : State.SteersAlike a c := by
  refine ⟨⟨by rw [g.r1.1, h.r1.1], by rw [g.r1.2.1, h.r1.2.1], ?_⟩, ⟨by rw [g.r2.1, h.r2.1],
      by rw [g.r2.2.1, h.r2.2.1], ?_⟩, by rw [g.sel, h.sel], ⟨by rw [g.tb.1, h.tb.1],
      by rw [g.tb.2.1, h.tb.2.1], by rw [g.tb.2.2, h.tb.2.2]⟩, fun hw => ?_⟩
  · rcases g.r1.2.2 with e | e | e
    · exact .inl e
    · rcases h.r1.2.2 with f | f | f
      · exact .inl (by rw [e, f])
      · exact .inr (.inl (by rw [e, f]))
      · exact .inr (.inr (by rw [g.r1.2.1]; exact f))
    · exact .inr (.inr e)
  · rcases g.r2.2.2 with e | e | e
    · exact .inl e
    · rcases h.r2.2.2 with f | f | f
      · exact .inl (by rw [e, f])
      · exact .inr (.inl (by rw [e, f]))
      · exact .inr (.inr (by rw [g.r2.2.1]; exact f))
    · exact .inr (.inr e)
  · have h1 := g.step hw; have h2 := h.step h1.1
    exact ⟨h2.1, fun hn => h1.2 (h2.2 hn)⟩

theorem State.SteersAlike.of_eq {s t : State} (a : t.ref1 = s.ref1) (b : t.ref2 = s.ref2) (c :
    t.sel = s.sel) (d : t.tb = s.tb) (e : s.key.nearTimeCode = false → t.key.nearTimeCode = false) :
    State.SteersAlike s t :=
  ⟨by simp [a], by simp [b], by rw [c], by simp [d], by rw [d]; exact fun h => ⟨h, e⟩⟩

/-- The keyer's part of a minute boundary at most abandons a phase step. -/
theorem State.keyerBoundary_steersAlike (s : State) : State.SteersAlike s s.keyerBoundary := by
  unfold State.keyerBoundary
  simp only
  refine State.SteersAlike.trans (b := { s with key := s.key.endFrame })
      (State.SteersAlike.of_eq rfl rfl rfl rfl ?_) ?_
  · unfold Keyer.endFrame; split <;> exact id
  generalize { s with key := s.key.endFrame } = s
  refine State.SteersAlike.trans (b := s.maintenanceDue) (State.SteersAlike.of_eq (by simp)
      (by simp) (by simp) (by simp) ?_) ?_
  · unfold State.maintenanceDue; split <;> exact id
  generalize s.maintenanceDue = s
  refine State.SteersAlike.trans (b := s.boundaryMode) ?_ (State.SteersAlike.of_eq (by simp)
      (by simp) (by simp) (by simp) ?_)
  · unfold State.boundaryMode
    split
    · simp only [State.boundaryPending]
      split
      · refine State.SteersAlike.trans (b := { s with key := { s.key with pendingMode := none } })
          (State.SteersAlike.of_eq rfl rfl rfl rfl ?_) (State.changeMode_steersAlike _ _)
        simp [Keyer.nearTimeCode]; tauto
      · refine State.SteersAlike.of_eq (by simp) (by simp) (by simp) (by simp) ?_
        simp [Keyer.nearTimeCode]; tauto
    · simp only [State.boundaryOffAir]
      split
      · exact State.SteersAlike.of_eq rfl rfl rfl rfl id
      · exact State.SteersAlike.trans (State.changeMode_steersAlike s .offAir)
          (State.SteersAlike.of_eq rfl rfl rfl rfl id)
    · unfold State.boundaryResume
      repeat' split
      · exact State.SteersAlike.refl _
      · exact State.SteersAlike.trans (b := { s with key := { s.key with maint := none } })
          (State.SteersAlike.of_eq rfl rfl rfl rfl id) (State.changeMode_steersAlike _ _)
      · exact State.SteersAlike.of_eq (by simp) (by simp) (by simp) (by simp) (by simp)
    · exact State.SteersAlike.refl _
  · simp only [State.takeFrame]
    repeat' split
    all_goals simp [Keyer.nearTimeCode]

theorem State.leapCheck_steersAlike (s : State) : State.SteersAlike s s.leapCheck := by
  constructor <;> simp [State.leapCheck]

/-- It agrees after the parts of an edge that come after the timebase's own. -/
theorem State.edgeEffects_steered {s : State} (h : State.Followable s) (k) :
    (s.edgeEffects k).Steered := by
  have h1 := State.pulsesAtEdge_steered h k
  simp only [State.edgeEffects]
  have h2 : ((s.pulsesAtEdge k).markBegun.loadLevels).Steered :=
    State.SteersAlike.steered (s := s.pulsesAtEdge k) ⟨by simp, by simp, by simp, by simp,
        by simp [State.loadLevels, Keyer.nearTimeCode]⟩ h1
  generalize (s.pulsesAtEdge k).markBegun.loadLevels = s at h2 ⊢
  have h3 : ∀ b, ((if b = true then s.minuteBoundary else s).beginSignal b).Steered := by
    intro b
    refine State.SteersAlike.steered (s := if b = true then s.minuteBoundary else s)
        (State.SteersAlike.of_eq (by simp) (by simp) (by simp) (by simp)
        (by simp [State.beginSignal, Keyer.nearTimeCode])) ?_
    split
    · exact State.SteersAlike.steered (State.SteersAlike.trans (State.keyerBoundary_steersAlike s)
        (State.SteersAlike.of_eq (by simp [State.minuteBoundary]) (by simp [State.minuteBoundary])
        (by simp [State.minuteBoundary]) (by simp only [State.minuteBoundary,
        State.minuteTick_frame]) (by simp [State.minuteBoundary]))) h2
    · exact h2
  generalize hs :
      (if s.tb.atBoundary = true then s.minuteBoundary else s).beginSignal s.tb.atBoundary = s'
  have h4 := h3 s.tb.atBoundary; rw [hs] at h4
  split
  · refine State.SteersAlike.steered ?_ h4
    unfold State.composition
    refine State.SteersAlike.trans (State.leapCheck_steersAlike s') ?_
    refine State.SteersAlike.trans (b := s'.leapCheck.processSchedule (nextMinute s'.tb.minute))
        (State.SteersAlike.of_eq (by simp) (by simp) (by simp) (by simp) ?_) ?_
    · simp only [State.processSchedule]; repeat' split
      all_goals simp [State.scheduleChanged, Keyer.nearTimeCode]
    · constructor <;> simp
  · exact h4


/-- What an edge does to the timebase itself. -/
theorem Timebase.edge_followable {t : Timebase} (hu : t.timeSet = false → t.disc = .free)
    (ha : t.timeSet = true → t.acq = none) (hw : t.stepWaiting = true → t.disc = .locked)
    (kind : EdgeKind) (n : Nat) (hk : ∀ l, kind = .acquisition l → t.timeSet = false) :
    ((t.edge kind n).timeSet = false → (t.edge kind n).disc = .free) ∧
      ((t.edge kind n).timeSet = true → (t.edge kind n).acq = none) ∧
      ((t.edge kind n).stepWaiting = true → (t.edge kind n).disc = .locked) ∧
      ((t.edge kind n).stepWaiting = true → t.stepWaiting = true) := by
  have hl : t.learn.timeSet = t.timeSet ∧ t.learn.disc = t.disc ∧ t.learn.acq = t.acq ∧
      t.learn.stepWaiting = t.stepWaiting := by
    unfold Timebase.learn Timebase.emptyWindow; repeat' split
    all_goals exact ⟨rfl, rfl, rfl, rfl⟩
  have hg : ∀ t : Timebase, t.age.timeSet = t.timeSet ∧ t.age.disc = t.disc ∧ t.age.acq = t.acq ∧
      t.age.stepWaiting = t.stepWaiting := by
    intro t; unfold Timebase.age; split <;> exact ⟨rfl, rfl, rfl, rfl⟩
  have hv : ∀ t : Timebase, t.advance.timeSet = t.timeSet ∧ t.advance.disc = t.disc ∧
      t.advance.acq = t.acq ∧ t.advance.stepWaiting = t.stepWaiting := by
    intro t; unfold Timebase.advance; split <;> exact ⟨rfl, rfl, rfl, rfl⟩
  have hf : ∀ t : Timebase, t.advanceFree.timeSet = t.timeSet ∧ t.advanceFree.disc = t.disc ∧
      t.advanceFree.acq = t.acq ∧ t.advanceFree.stepWaiting = t.stepWaiting := by
    intro t; unfold Timebase.advanceFree; split <;> exact ⟨rfl, rfl, rfl, rfl⟩
  have hwin : ∀ t : Timebase, t.emptyWindow.timeSet = t.timeSet ∧ t.emptyWindow.disc = t.disc ∧
      t.emptyWindow.acq = t.acq := fun t => ⟨rfl, rfl, rfl⟩
  have e : t.edge kind n = (((t.windowAtEdge kind).age).timeAtEdge kind).beginSecond n := rfl
  simp only [e, Timebase.beginSecond]
  generalize hx : (t.windowAtEdge kind).age = x
  have hx' : x.timeSet = t.timeSet ∧ x.disc = t.disc ∧ x.acq = t.acq ∧
      (x.stepWaiting = true → t.stepWaiting = true ∧ x.disc = .locked) := by
    subst hx
    refine ⟨?_, ?_, ?_, ?_⟩ <;> cases kind <;> simp [Timebase.windowAtEdge, hg, hl]
    all_goals first | rfl | exact fun h => ⟨h, hw h⟩
  cases kind <;> cases hp : x.pendingStep <;>
    simp [Timebase.timeAtEdge, hp, Timebase.setTime, Timebase.acquire] <;> grind

/-- A second edge keeps the agreement; only in UNSET time, with a port to acquire on,
    is it an acquisition. -/
theorem State.makeEdge_steered {s : State} (h : s.Steered) (k) (hk : ∀ l, k = .acquisition l →
    s.tb.timeSet = false ∧ s.steering.isSome) : (s.makeEdge k).Steered := by
  unfold State.makeEdge
  apply State.edgeEffects_steered
  have hP := State.Followable.of_steered h
  obtain ⟨e1, e2, e3, e4⟩ := Timebase.edge_followable hP.unset hP.acq (fun hw =>
      (hP.step hw).1) k s.now
    (fun l hl => (hk l hl).1)
  exact ⟨RefPort.Enabled.keep h.1 rfl Iff.rfl rfl, RefPort.Enabled.keep h.2 rfl Iff.rfl rfl, e1, e2,
    fun hw => ⟨e3 hw, (hP.step (e4 hw)).2⟩⟩

end Sys2Proof.Machine
end

