-- ==== Sys2Proof/Tests/Slice0.lean ====
section
/-! SUPPORT. Tests: the well-formedness checks, worked examples of the manual (the section stands in
each comment), and for each statement of Obligations.lean a witness of its hypotheses, clause by clause. -/

set_option maxRecDepth 40000

namespace Sys2Proof.Tests

open Sys2Proof.Machine

/-! ## Well-formedness: one ill-formed command for each check -/

theorem test_wf_notice_too_long : (Instr.writeNotice .a 0 0 (List.replicate 56 0x41)).wellFormed = false := by
  decide
theorem test_wf_notice_fits : (Instr.writeNotice .a 0 0 (List.replicate 55 0x41)).wellFormed = true := by
  decide
theorem test_wf_frame_empty : (Instr.linkFrameReceived .a [] 0).wellFormed = false := by decide
theorem test_wf_message_empty : (Instr.refMessage .p1 [] 0).wellFormed = false := by decide
theorem test_wf_difference_no_denominator : (Instr.comparisonPeriodEnd 1 0).wellFormed = false := by decide
theorem test_wf_length_octet_valid_low : (Instr.lengthOctetInvalid .a 3 0).wellFormed = false := by decide
theorem test_wf_length_octet_valid_high : (Instr.lengthOctetInvalid .a 60 0).wellFormed = false := by decide
theorem test_wf_length_octet_invalid : (Instr.lengthOctetInvalid .a 61 0).wellFormed = true := by decide

/-! ## The manual's own examples -/

/-- 11.1: the check of the octets 0x31..0x39 is 0x29B1. -/
theorem test_crc16 : crc16 [0x31, 0x32, 0x33, 0x34, 0x35, 0x36, 0x37, 0x38, 0x39] = 0x29B1 := by decide

/-- R2: the reduced level of 1000 at 15 percent is 150, and of 1023 at 5 percent 51. -/
theorem test_reduced_level : (reducedLevel 1000 15, reducedLevel 1023 5) = (150, 51) := by decide

/-- R27: the shares of T = -237. -/
theorem test_trim_shares :
    ([0, 1, 2, 3, 4, 99].map (trimShare (-237))) = [-3, -2, -3, -2, -2, -2] := by decide

/-- R93, R94: day 9678 is 1 July of year 26, a Wednesday; days 0 and 36524 are Saturday and Thursday. -/
theorem test_calendar :
    (dayOfMonth 9678, monthOf 9678, yearOfCentury 9678, weekday 9678, weekday 0, weekday 36524) =
      (1, 7, 26, 3, 6, 4) := by decide

/-- R69: 9677 is the last day of its month and 9676 is not. -/
theorem test_last_of_month : (isLastOfMonth 9677, isLastOfMonth 9676) = (true, false) := by decide

/-- R136, 7.2: the default settings give 71.25 kHz. -/
theorem test_default_carrier : carrierMHz 228 125 0 = 71250000 := by decide

/-- 1.6.1: from the seed, the generator gives fifteen 1s. -/
theorem test_pattern_start :
    ((List.range 16).map fun n => genOutput (genStep^[n] genSeed)) =
      List.replicate 15 true ++ [false] := by decide

/-- R22: the second 86400 of a day is second 60 of minute 1439. -/
theorem test_leap_second : (minuteOfDay 86400, secondOfMinute 86400) = (1439, 60) := by decide

/-! ## Helpers -/

/-- `s` with the request of `c` as the one entry that waits on its link. -/
def waits (s : State) (c : Instr) : State :=
  match c.asRequest with
  | some (l, q) => s.setLink l { s.link l with outstanding := [⟨q, .waiting, false⟩] }
  | none => s

/-- The executor takes up `c` once its request waits on `s`. -/
def taken (s : State) (c : Instr) : Bool := (waits s c).takesUp c

/-- Time is set to second `sec` of day 9677, and port 1 is QUALIFIED, selected and locked to. -/
def timed (sec : Nat) : State :=
  State.resetViews { State.reset with
    tb := { Timebase.reset with
      timeSet := true, day := 9677, sec := sec, disc := .locked, edgeMade := true, begunLocked := true }
    ref1 := { RefPort.reset with st := .qualified, watch := some 20000200, lastPulse := some 0 }
    sel := { Selector.reset with selection := some .p1 } }

/-- The keyer in mode `m`, on air with all that it needs. -/
def keying (m : Mode) (sec : Nat) : State :=
  let s := timed sec
  State.resetViews { s with
    txReady := true
    synth := { s.synth with st := .locked }
    key := { s.key with mode := m } }

/-- A change entry of kind ZONE_CHANGE for minute `e`. -/
def zoneEntry (number e : Nat) (announcing : Bool) : Entry where
  number := number
  kind := .zoneChange
  eDay := e / 1440
  eMinute := e % 1440
  newZone := some 1
  lead := 60
  origin := .a
  postedDay := 0
  postedSec := 0
  announcing := announcing
  altered := none

/-! ## Small steps -/

/-- R213, R191: the executor answers READ_STATUS, whose response stands at the end of the output. -/
theorem test_read_status_answers :
    (match exec (.readStatus .a 7) (waits State.reset (.readStatus .a 7)) with
      | .next t => t.linkA.output.map fun r => (r.tag, r.result)
      | _ => []) = [(7, Result.ok)] := by decide

/-- R116: off air with the synthesizer OFF, TIME_CODE is refused NOT_READY. -/
theorem test_set_mode_not_ready :
    (match exec (.setMode .b 1 2) (waits State.reset (.setMode .b 1 2)) with
      | .next t => t.linkB.output.map (·.result)
      | _ => []) = [Result.notReady] := by decide

/-- R23: the edge after second 86399 of a 60-second minute begins day 9678. -/
theorem test_day_rolls :
    (match exec .secondEdge (timed 86399) with
      | .next t => (t.tb.day, t.tb.sec)
      | _ => (0, 0)) = (9678, 0) := by decide

/-- R126: KILL_CARRIER off an on-air mode. -/
theorem test_kill :
    (match exec (.killCarrier .a 0) (waits (keying .carrierOnly 10) (.killCarrier .a 0)) with
      | .next t => (t.key.mode, t.carrierEnable)
      | _ => (.carrierOnly, true)) = (.offAir, false) := by decide

/-- R152: with the two further attempts made, an expiry ends the scan read and the module is SILENT. -/
theorem test_scan_silent :
    (match exec .answerWindowExpiry { State.reset with bus := { Bus.reset with
        txn := Bus.reset.txn.map fun x => { x with attempts := 3, phase := .window 5 } } } with
      | .next t => ((t.bus.record 1).st, t.bus.pos)
      | _ => (.ok, 0)) = (.silent, 2) := by decide

/-- Example 1.4: the data bits of the plain frame give the frame check 1010. -/
theorem test_plain_frame_check :
    crc4 (List.replicate 29 false ++
      [true, false, false, true, false, false, false, false, false, true] ++
      List.replicate 8 false ++ [true, false, false, false, false]) = 0b1010 := by decide

/-! ## Witnesses: the machine and its resets -/

/-- POR_N held at 0, and a command that is not its rise. -/
theorem witness_HeldPowerOnResetSilencesThePart :
    ({ State.reset with por := true }).por = true ∧ ∀ dt, Instr.secondEdge ≠ .powerOnReset dt :=
  ⟨rfl, fun _ => nofun⟩

/-- FREQ_IN present exactly at the rise, and one cycle later. -/
theorem witness_PowerOnResetStartsEveryBlock :
    ({ State.reset with freqFrom := 5 }).freqFrom ≤ State.reset.now + 5 ∧
    State.reset.now + 5 < ({ State.reset with freqFrom := 6 }).freqFrom := by decide

/-- A response of an executed RESTART. -/
def restartResponse : Response where
  tag := 1
  code := 0x92
  result := .ok
  data := [0, 0]
  atOnce := false
  relayed := false

/-- A RESTART is awaited and its response stands in link A's output. -/
def awaiting : State :=
  { State.reset with
    exe := { Executor.reset with restartAwaited := true }
    linkA := { LinkState.reset with
      output := [restartResponse], outstanding := [⟨⟨1, 0x92, []⟩, .answered, false⟩] } }

theorem witness_RestartKeepsTheCarryOverContext :
    ({ State.reset with params := { Params.reset with carryOver := true } }).params.carryOver = true ∧
    State.reset.params.carryOver = false ∧ State.reset.por = false ∧
    taken State.reset (.restart .a 1) = true ∧
    awaiting.por = false ∧ awaiting.exe.restartAwaited = true ∧
    State.reset.exe.restartAwaited = false ∧
    (awaiting.link .a).output = restartResponse :: [] ∧
    (restartResponse.code = 0x92 ∧ restartResponse.result = .ok ∧ restartResponse.atOnce = false) := by
  decide

theorem witness_RestartKeeps_next :
    ∃ t, exec (.restartNFall 0) State.reset = .next t := ⟨_, rfl⟩

theorem witness_LinkBreakResetsItsLinkAlone :
    State.reset.por = false ∧ State.reset.exe.restartAwaited = false ∧
    (awaiting.link .b).output = [] ∧
    awaiting.exe.restartAwaited = true ∧ restartResponse ∈ (awaiting.link .a).output ∧
    (restartResponse.code = 0x92 ∧ restartResponse.result = .ok ∧ restartResponse.atOnce = false) := by
  decide

/-! ## Witnesses: the control links -/

theorem witness_RequestFrameIsReceivedWhole :
    State.reset.por = false ∧ (State.reset.link .a).rx = .hunt ∧
    (⟨0xFFFF, 0x60, List.replicate 57 0⟩ : Request).args.length ≤ 57 := by decide

/-- Link A is in LENGTH. -/
def inLength : State := { State.reset with linkA := { LinkState.reset with rx := .length } }

theorem witness_DiscardedFrameIsCounted :
    ((State.reset.link .a).rx = .hunt ∧ 3 ≤ [0#8, 1, 2].length ∧ [0#8, 1, 2].length ≤ 60 ∧
      (0 : BitVec 16) ≠ crc16 (octetsBE 1 [0#8, 1, 2].length ++ [0, 1, 2])) ∧
    (3 ≤ (List.replicate 60 (0 : Octet)).length ∧ (List.replicate 60 (0 : Octet)).length ≤ 60 ∧
      (0 : BitVec 16) ≠ crc16 (octetsBE 1 60 ++ List.replicate 60 0)) ∧
    (inLength.por = false ∧ (inLength.link .a).rx = .length ∧ (inLength.link .a).rx ≠ .hunt) ∧
    ((2 : Octet).toNat < 3 ∧ 60 < (61 : Octet).toNat) := by decide

/-- Link A holds `n` requests that wait. -/
def holding (n : Nat) : State :=
  { State.reset with linkA := { LinkState.reset with
      outstanding := List.replicate n ⟨⟨0, 0x10, []⟩, .waiting, false⟩ } }

/-- The refusal of a MODULE_READ. -/
def refusedRead : Response where
  tag := 5
  code := 0x80
  result := .badArgument
  data := []
  atOnce := false
  relayed := false

/-- On link B a relay and a later refused MODULE_READ of the same TAG are ANSWERED, the refusal first in
the output, and a restart is awaited. -/
def refusedAfterRelay : State :=
  { State.reset with
    exe := { Executor.reset with restartAwaited := true }
    linkB := { LinkState.reset with
      output := [refusedRead]
      outstanding := [⟨⟨5, 0x80, [1, 0]⟩, .answered, true⟩, ⟨⟨5, 0x80, [0, 0]⟩, .answered, false⟩] } }

theorem witness_OutstandingListIsKept :
    8 ≤ ((holding 8).link .a).outstanding.length ∧
    ((holding 7).link .a).outstanding.length < 8 ∧
    argsFit 0x07 [] = none ∧ (0x07 : Octet) ∉ catalogue.map (·.1) ∧ (0x07 : Octet) ≠ 0x60 ∧
    argsFit 0x04 [] = some false ∧ argsFit 0x60 [1, 2, 0x41] = some false ∧
    argsFit 0x60 [1, 2, 0x41, 0x42] = some true ∧
    (State.reset.link .a).output = [] ∧
    ({ restartResponse with atOnce := true }).atOnce = true ∧
    (awaiting.link .a).outstanding = [] ++ ⟨⟨1, 0x92, []⟩, .answered, false⟩ :: [] ∧
    (awaiting.exe.restartAwaited = true ∧ (refusedAfterRelay.link .b).output = refusedRead :: [] ∧
      ¬(refusedRead.code = 0x92 ∧ refusedRead.result = .ok ∧ refusedRead.atOnce = false)) ∧
    ((refusedAfterRelay.link .b).outstanding = [⟨⟨5, 0x80, [1, 0]⟩, .answered, true⟩] ++
        ⟨⟨5, 0x80, [0, 0]⟩, .answered, false⟩ :: [] ∧ refusedRead.relayed = false) := by decide

theorem witness_OutstandingList_line :
    (State.reset.por = false ∧ (State.reset.link .a).output = []) ∧
    (refusedAfterRelay.por = false ∧ (refusedAfterRelay.link .b).output = refusedRead :: []) := by decide

/-- R207, R209: the refusal of MODULE_READ goes out as its start octet, LENGTH 4, TAG, CODE, result and check;
the check was computed outside the model. -/
theorem test_refusal_on_the_line :
    refusedAfterRelay.txLine .b = some [0xC3, 4, 0, 5, 0x80, 5, 0x38, 0xC7] := by decide

/-- R215: WRITE_NOTICE has its slot, the length of its text and that many octets. -/
theorem test_notice_argument_count :
    ([[], [0], [0, 0], [0, 1], [0, 1, 0x41], [0, 1, 0x41, 0x42]].map (argsFit 0x60)) =
      [some false, some false, some true, some false, some true, some false] := by decide

/-- R211: the refusal of a later MODULE_READ of equal TAG, sent first, takes its own entry from the list
and leaves the relay's. -/
theorem test_response_takes_its_own_entry :
    (match exec (.responseSent .b 0) refusedAfterRelay with
      | .next t => t.linkB.outstanding.map fun e => (e.req.args, e.relayed)
      | _ => []) = [([1, 0], true)] := by decide

/-- Each link holds a request that waits; link A is served next while the count is below its weight. -/
def bothWait (count : Nat) : State :=
  { State.reset with
    exe := { Executor.reset with count := count }
    linkA := { LinkState.reset with outstanding := [⟨⟨1, 0x10, []⟩, .waiting, false⟩] }
    linkB := { LinkState.reset with outstanding := [⟨⟨2, 0x23, []⟩, .waiting, false⟩] } }

theorem witness_ExecutorAlternatesByWeight :
    (State.reset.linkA.oldestWaiting = none ∧ State.reset.linkB.oldestWaiting = none) ∧
    (((holding 1).link .a).oldestWaiting = some ⟨0, 0x10, []⟩ ∧
      ((holding 1).link Link.a.other).oldestWaiting = none) ∧
    (((bothWait 1).link (bothWait 1).exe.turn).oldestWaiting = some ⟨1, 0x10, []⟩ ∧
      ((bothWait 1).link (bothWait 1).exe.turn.other).oldestWaiting = some ⟨2, 0x23, []⟩) ∧
    (bothWait 0).exe.count < (bothWait 0).params.weight .a ∧
    ¬(bothWait 1).exe.count < (bothWait 1).params.weight .a := by decide

theorem witness_ChosenRequestIsExecuted :
    taken State.reset (.readTime .a 1) = true ∧
    ((⟨⟨2, 0x23, []⟩, .waiting, false⟩ : Outstanding) ∈ ((bothWait 0).link .b).outstanding ∧
      (Instr.readReferences .b 2).asRequest = some (.b, ⟨2, 0x23, []⟩) ∧
      (bothWait 0).choice ≠ some (.b, ⟨2, 0x23, []⟩)) ∧
    ((State.reset.link .a).outstanding = [] ∧ argsFit 0x10 [] = some true) := by decide

/-! ## Witnesses: the conditions block -/

theorem witness_ActiveSetAndViewsAreKept :
    (keying .timeCode 10).ConditionsExact ∧ (keying .timeCode 10).ViewsHoldActive :=
  ⟨fun _ => by decide, by unfold State.ViewsHoldActive; decide⟩

theorem witness_ReadStatusReplacesItsView : taken State.reset (.readStatus .b 0) = true := by decide

theorem witness_MasksGovernTheLines :
    (taken State.reset (.setAlertMask .a 1 0x02000000) = true ∧
      (0x02000000#32).getLsbD 25 = true) ∧
    (taken State.reset (.setAlertMask .a 1 0x01FFFFFF) = true ∧
      ∀ i, 25 ≤ i → i < 32 → (0x01FFFFFF#32).getLsbD i = false) ∧
    (taken State.reset (.setFaultMask .b 1 0x2000) = true ∧ (0x2000#32).getLsbD 13 = true) ∧
    (taken State.reset (.setFaultMask .b 1 0x1FFF) = true ∧
      ∀ i, 13 ≤ i → i < 32 → (0x1FFF#32).getLsbD i = false) ∧
    State.reset.por = false := by
  refine ⟨by decide, ⟨by decide, ?_⟩, by decide, ⟨by decide, ?_⟩, rfl⟩
  · intro i h h'; interval_cases i <;> decide
  · intro i h h'; interval_cases i <;> decide

theorem witness_TickNowLatchesTheCounters :
    taken State.reset (.tickNow .a 1) = true ∧
    ((timed 59).por = false ∧ (timed 59).tb.stepWaiting = false) := by decide

/-- R198: with TICK_PERIOD at 15 the edges that begin minutes 0 and 15 tick, and those that begin minute 14
or a second inside minute 15 do not; on the free minute count the edge that begins minute 0 ticks. -/
theorem test_tick_at_boundaries :
    ([timed 86399, timed (15 * 60 - 1), timed (14 * 60 - 1), timed (15 * 60),
        { State.reset with tb := { Timebase.reset with freeSec := 59, freeMin := 1439 } }].map fun s =>
      match exec .secondEdge s with
      | .next t => t.cond.seq
      | _ => 9) = [1, 1, 0, 0, 1] := by decide

/-- TIME_CODE with no frame ready, the next second one after `sec`, and `n` blank minutes counted. -/
def blankAt (sec n : Nat) : State :=
  let s := keying .timeCode sec
  { s with cond := { s.cond with live := Vector.replicate 12 n } }

/-- R128, R201: a blank minute keyed at a tick is in the latched counters, and the live ones begin at 0. -/
theorem test_blank_minute_in_the_tick :
    ([blankAt 899 0, blankAt 899 4294967295, blankAt 59 0].map fun s =>
      match exec .secondEdge s with
      | .next t => (t.cond.latched[4], t.cond.live[4])
      | _ => (9, 9)) = [(1, 0), (4294967295, 0), (0, 1)] := by decide

theorem witness_CountersAndThresholds :
    (taken State.reset (.setThreshold .a 1 12 5) = true ∧ 11 < (12 : Octet).toNat) ∧
    (taken State.reset (.setThreshold .a 1 11 5) = true ∧ (11 : Octet).toNat = (11 : Fin 12)) ∧
    (taken State.reset (.readCounters .a 1 0) = true ∧ taken State.reset (.readCounters .a 1 1) = true ∧
      taken State.reset (.readCounters .a 1 2) = true) ∧
    (taken State.reset (.readCounters .a 1 3) = true ∧ 2 < (3 : Octet).toNat) ∧
    (Vector.replicate 12 4294967295)[Counter.linkBDiscards.id] ≤ 4294967295 := by decide

/-! ## Witnesses: the timebase -/

/-- `timed sec` with the timebase changed by `f`. -/
def timedBy (sec : Nat) (f : Timebase → Timebase) : State := { timed sec with tb := f (timed sec).tb }

theorem witness_SecondEdgeAdvancesTime :
    ((timed 0).por = false ∧ (timed 0).tb.stepWaiting = false ∧ (timed 0).tb.timeSet = true ∧
      (timed 0).tb.pendingStep = none) ∧
    (timedBy 0 fun t => { t with pendingStep := some (36524, 86399) }).tb.pendingStep =
      some (36524, 86399) ∧
    secondOfMinute (timed 58).tb.sec + 1 < (timed 58).tb.minLen ∧
    ((timed 86339).tb.minLen = secondOfMinute (timed 86339).tb.sec + 1 ∧
      minuteOfDay (timed 86339).tb.sec < 1439) ∧
    ((timed 86399).tb.minLen = secondOfMinute (timed 86399).tb.sec + 1 ∧
      minuteOfDay (timed 86399).tb.sec = 1439 ∧ (timed 86399).tb.day < 36524) ∧
    ((timedBy 86400 fun t => { t with minLen := 61, day := 36524 }).tb.minLen =
        secondOfMinute 86400 + 1 ∧ minuteOfDay 86400 = 1439) ∧
    (State.reset.tb.pendingStep = none ∧ State.reset.tb.timeSet = false) := by decide

theorem witness_SecondLengthSpreadsTheTrim :
    State.reset.por = false ∧ State.reset.tb.stepWaiting = false ∧ State.reset.ref1.openPulses = [] ∧
    State.reset.ref2.openPulses = [] ∧ (99 < 100 ∧ (-5000 : Int) ≤ -5000 ∧ (5000 : Int) ≤ 5000) := by
  decide

/-- `timed sec` with port 1's pulse, at instant `at_` with label `label`, waiting for the next edge. -/
def pulseWaits (sec at_ : Nat) (label : Option Label) : State :=
  let s := timed sec
  { s with ref1 := { s.ref1 with openPulses := [{ at_ := at_, interval := .regular, label := label }] } }

theorem witness_SecondLength_waiting :
    (let s := timed 10;
      s.por = false ∧ s.tb.stepWaiting = false ∧ s.sel.selection = some .p1 ∧
      (s.port .p1).openPulses = []) ∧
    (let s := pulseWaits 10 9999935 none;
      s.por = false ∧ s.tb.stepWaiting = false ∧ s.tb.disc = .locked ∧ s.sel.selection = some .p1 ∧
      (s.port .p1).openPulses = [{ at_ := 9999935, interval := .regular, label := none }] ∧
      (s.port Port.p1.other).openPulses = []) := by decide

/-- R28, R29: pulses 64 and 65 cycles before the edge take 64 cycles off the second it begins; the second
of them is limited to SLEW, and that second is a slewing second, counted. -/
theorem test_waiting_pulse_corrects :
    ([9999936, 9999935].map fun n =>
      match exec .secondEdge (pulseWaits 10 n none) with
      | .next t => (t.tb.length, t.tb.slewing, t.ref1.lastOffset, t.cond.live[Counter.slewSeconds.id])
      | _ => (0, false, 0, 9)) = [(9999936, false, 64, 0), (9999936, true, 65, 1)] := by decide

/-- R50, R201: a wrong label that waits for the edge of a tick takes the port from QUALIFIED at that edge, and
the exit is in the latched counters; at another edge it is in the live ones. -/
theorem test_exit_in_the_tick :
    ([899, 10].map fun sec =>
      match exec .secondEdge (pulseWaits sec 9999936 (some ⟨0, 0, .none⟩)) with
      | .next t => (t.ref1.st, t.cond.latched[Counter.ref1Disqualify.id],
          t.cond.live[Counter.ref1Disqualify.id])
      | _ => (.absent, 9, 9)) = [(.candidate, 1, 0), (.candidate, 0, 1)] := by decide

/-- A second begun and ending in LOCKED, with `n` seconds in the window. -/
def learning (n : Nat) (slewing : Bool) : State :=
  timedBy 10 fun t => { t with winCount := n, slewing := slewing }

theorem witness_LearningWindowMovesTheTrim :
    (∀ n ∈ [0, 98, 99], ∀ b, let s := learning n b;
      s.por = false ∧ s.tb.stepWaiting = false ∧ s.tb.disc = .locked ∧ s.tb.begunLocked = true ∧
      s.ref1.openPulses = [] ∧ s.ref2.openPulses = [] ∧ s.tb.timeSet = true ∧
      s.steering.isSome = true ∧ s.tb.slewing = b ∧ s.tb.winCount = n) := by decide

theorem witness_PhaseStepHoldsTheEdge :
    (timedBy 0 fun t => { t with stepWaiting := true }).por = false ∧
    (timedBy 0 fun t => { t with stepWaiting := true }).tb.stepWaiting = true ∧
    (timed 0).tb.stepWaiting = false := by decide

/-- `timed 0` counting on the standby oscillator. -/
def onStandby : State := timedBy 0 fun t => { t with source := .standby }

/-- On source `x` in HOLDOVER, with the synthesizer LOCKED. -/
def holdingOver (x : Source) : State :=
  { timedBy 0 fun t => { t with source := x, disc := .holdover } with
    synth := { Synth.reset with st := .locked } }

theorem witness_SourceChangeClearsTheTrim :
    (timed 0).por = false ∧ (timed 0).tb.source = .station ∧ (timed 0).tb.disc = .locked ∧
    onStandby.por = false ∧ onStandby.tb.source = .standby ∧ onStandby.tb.disc = .locked ∧
    (∀ x ∈ [Source.station, .standby], (holdingOver x).por = false ∧ (holdingOver x).tb.source = x ∧
      (holdingOver x).tb.disc = .holdover ∧ (holdingOver x).synth.st ≠ .off) ∧
    (timed 0).synth.st = .off := by decide

theorem witness_StepTimeIsHeldForTheNextEdge :
    (taken (keying .timeCode 0) (.stepTime .a 1 0 0) = true ∧
      (keying .timeCode 0).key.mode = .timeCode) ∧
    (taken State.reset (.stepTime .a 1 36525 0) = true ∧ 36524 < (36525 : BitVec 16).toNat ∧
      State.reset.key.nearTimeCode = false) ∧
    (taken State.reset (.stepTime .a 1 0 86400) = true ∧ 86399 < (86400 : BitVec 24).toNat) ∧
    (taken State.reset (.stepTime .a 1 36524 86399) = true ∧ (36524 : BitVec 16).toNat ≤ 36524 ∧
      (86399 : BitVec 24).toNat ≤ 86399) ∧
    State.reset.tb.timeSet = false := by decide

theorem witness_DisciplineFollowsTheSelection : (keying .timeCode 10).Steered :=
  ⟨⟨by decide, by decide⟩, ⟨by decide, by decide⟩, by decide, by decide, by decide, by decide⟩

theorem witness_TimebaseStaysInRange : (timed 86399).TimeInRange where
  day := by decide
  sec := by decide
  minLen := by decide
  handed := nofun
  pendingStep := nofun
  labels := ⟨nofun, nofun⟩
  freeSec := by decide
  freeMin := by decide
  trim := by decide
  k := by decide
  winCount := by decide
  holdAge := by decide

theorem witness_TimebaseStaysInRange_reset :
    ∃ t, exec (.powerOnReset 0) (timed 0) = .next t ∧ (timed 0).tb.timeSet = true ∧
      t.tb.timeSet = false := ⟨_, rfl, by decide, rfl⟩

/-! ## Witnesses: the reference ports -/

/-- `timed 10` with port 2 changed by `f`. -/
def port2 (f : RefPort → RefPort) : State := { timed 10 with ref2 := f (timed 10).ref2 }

theorem witness_PulseTakesTheWaitingLabel :
    ((port2 fun r => { r with enable := false, st := .disabled }).port .p2).st = .disabled ∧
    (((timed 10).port .p1).st ≠ .disabled ∧ (timed 10).por = false) ∧
    (((timed 10).port .p2).st = .absent ∧ ((timed 10).port .p2).lastPulse = none ∧
      ((timed 10).port .p2).openPulses = []) := by decide

theorem witness_PulseCorrectsTheSecond :
    (let s := timed 10;
      s.por = false ∧ (s.port .p1).st ≠ .disabled ∧ s.tb.disc = .locked ∧
      s.sel.selection = some .p1 ∧ s.tb.stepWaiting = false ∧ s.tb.timeSet = true ∧
      s.tb.edgeMade = true ∧ s.tb.edgeAt ≤ s.now + 0 ∧ s.now + 5000000 ≤ s.tb.edgeAt + 5000000) ∧
    ((timed 10).now + 64 - (timed 10).tb.edgeAt ≤ (timed 10).params.slew ∧
      (timed 10).params.slew < (timed 10).now + 65 - (timed 10).tb.edgeAt) := by decide

theorem witness_PulseCorrects_waits :
    (let s := timed 10;
      s.por = false ∧ (s.port .p1).st ≠ .disabled ∧ s.tb.edgeAt + 5000000 < s.now + 5000001 ∧
      s.tb.stepWaiting = false ∧ s.tb.timeSet = true) ∧
    (State.reset.por = false ∧ (State.reset.port .p1).st ≠ .disabled ∧
      State.reset.tb.edgeMade = false ∧ State.reset.tb.stepWaiting = false ∧
      State.reset.tb.acq = none) := by decide

/-- R28: a pulse 5,000,000 cycles after the edge is paired with it; one cycle later it waits for the next. -/
theorem test_pulse_waits :
    ([5000000, 5000001].map fun dt =>
      match exec (.refPulse .p1 dt) (timed 10) with
      | .next t => (t.ref1.openPulses.map (·.at_), t.tb.corr, t.ref1.lastOffset)
      | _ => ([], 0, 0)) = [([], 64, -5000000), ([5000001], 0, 0)] := by decide

/-- Time is UNSET, acquisition waits on port 1, and the port holds a label. -/
def acquiring : State :=
  { State.reset with
    tb := { Timebase.reset with acq := some .p1 }
    ref1 := { RefPort.reset with st := .qualified, waiting := some ⟨9677, 86399, .none⟩ } }

/-- A phase step waits on port 1. -/
def stepping : State := timedBy 58 fun t => { t with stepWaiting := true }

theorem witness_PulseMakesAnEdge :
    (acquiring.por = false ∧ (acquiring.port .p1).st ≠ .disabled ∧ acquiring.tb.timeSet = false ∧
      acquiring.tb.acq = some .p1 ∧ (acquiring.port .p1).waiting = some ⟨9677, 86399, .none⟩) ∧
    (stepping.por = false ∧ (stepping.port .p1).st ≠ .disabled ∧ stepping.tb.timeSet = true ∧
      stepping.tb.stepWaiting = true ∧ stepping.sel.selection = some .p1 ∧
      stepping.tb.edgeAt + 5000000 < stepping.now + 5000001 ∧ stepping.tb.pendingStep = none ∧
      secondOfMinute stepping.tb.sec + 1 < stepping.tb.minLen) := by decide

theorem witness_TimeMessageSetsTheLabel :
    (State.reset.por = false ∧ ((36524 : Nat) ≤ 36524 ∧ (86400 : Nat) ≤ 86400) ∧
      (State.reset.port .p1).rx = [] ∧ (State.reset.port .p1).st ≠ .disabled) ∧
    ((port2 fun r => { r with enable := false, st := .disabled }).port .p2).st = .disabled ∧
    ((port2 fun r => { r with rx := [0x5A] }).port .p2).rx ≠ [] := by decide

/-- A port with `n` octets of a message in progress, during which a pulse has come. -/
def lateMessage (n : Nat) : State := port2 fun r => { r with rx := List.replicate n 0x5A, rxLate := true }

/-- R44: the day 36525 of 0x8EAD, the second 86401 of 0x015181, the leap warning code 3, and a check that
fails, each beside the values that pass. -/
theorem witness_TimeMessage_discarded :
    ((1 + 1) % 256 ≠ (0 : Nat) ∧ (255 + 1) % 256 = (0 : Nat)) ∧
    ((6 : Octet).getLsbD 1 = true ∧ (6 : Octet).getLsbD 2 = true ∧ (4 : Octet).getLsbD 1 = false) ∧
    (36524 < 256 * (0x8E : Octet).toNat + (0xAD : Octet).toNat ∧
      256 * (0x8E : Octet).toNat + (0xAC : Octet).toNat = 36524) ∧
    86400 < 65536 * (1 : Octet).toNat + 256 * (0x51 : Octet).toNat + (0x81 : Octet).toNat ∧
    (∀ n ∈ [1, 6, 7], let r := (lateMessage n).port .p2;
      (lateMessage n).por = false ∧ r.st ≠ .disabled ∧ r.rx ≠ [] ∧ r.rxLate = true ∧
      r.rx.length + (8 - n) = 8) ∧
    ((0x5B : Octet) ≠ 0x5A ∧ (State.reset.port .p1).rx = []) := by decide

/-- R44, R45: a message with a right check labels the next pulse, one with a wrong check does not, and nor
does one that completes after a pulse in its midst. -/
theorem test_message_discarded :
    ([([0x5A, 1, 0, 2, 0, 0, 3, 0xFA], State.reset), ([0x5A, 1, 0, 2, 0, 0, 3, 0xFB], State.reset),
        ([3, 0xFA], port2 fun r => { r with rx := [0x5A, 1, 0, 2, 0, 0], rxLate := true })].map fun x =>
      match exec (.refMessage .p2 x.1 0) x.2 with
      | .next t => (t.ref2.waiting.map fun y => (y.day, y.sec), t.ref2.rx)
      | _ => (none, [])) = [(some (2, 3), []), (none, []), (none, [])] := by decide

theorem witness_PulseWatchLosesThePort :
    ((timed 10).por = false ∧ ((timed 10).port .p1).watch = some 20000200 ∧
      ((timed 10).port .p1).missed = 0) ∧
    (let s := port2 fun r => { r with watch := some 7, missed := 1, st := .candidate };
      s.por = false ∧ (s.port .p2).watch = some 7 ∧ (s.port .p2).missed = 1) := by decide

/-- Both ports are QUALIFIED, port 1 is selected, in the given mode, with one pulse missed. -/
def oneMissed (m : SelectMode) : State :=
  let s := port2 fun r => { r with st := .qualified, lastOffset := 65 }
  { s with
    sel := { s.sel with mode := m, manual := some .p1 }
    ref1 := { s.ref1 with missed := 1 } }

theorem witness_PulseWatch_qualified :
    ∀ m ∈ [SelectMode.auto, .manual], let s := oneMissed m;
      s.por = false ∧ (s.port .p1).watch = some 20000200 ∧ (s.port .p1).missed = 1 ∧
      (s.port .p1).st = .qualified ∧ s.sel.selection = some .p1 ∧ s.sel.mode = m ∧
      (s.port Port.p1.other).st = .qualified ∧ s.tb.disc = .locked ∧ s.tb.timeSet = true ∧
      s.params.slew < (s.port Port.p1.other).lastOffset.natAbs ∧ s.key.nearTimeCode = false := by decide

/-- R30, R53, R54, R55: in AUTO the selection goes to the other QUALIFIED port, with REF_SWITCH and the entry's
phase step for its offset of 65; in MANUAL it stays and LOCKED is left. -/
theorem test_selection_follows :
    ([SelectMode.auto, .manual].map fun m =>
      match exec (.pulseWatchExpiry .p1) (oneMissed m) with
      | .next t => (t.sel.selection, t.cond.viewA.getLsbD 15, t.tb.disc, t.tb.stepWaiting)
      | _ => (none, false, .free, false)) =
    [(some .p2, true, .locked, true), (some .p1, false, .free, false)] := by decide

/-- `timed 10` in MANUAL. -/
def manual : State := { timed 10 with sel := { (timed 10).sel with mode := .manual } }

/-- `timed 10` with port 2 DISABLED. -/
def oneOff : State := port2 fun r => { r with enable := false, st := .disabled }

theorem witness_ReferenceRequestsSelect :
    (taken (timed 10) (.selectReference .a 1 3) = true ∧ 2 < (3 : Octet).toNat) ∧
    (taken (timed 10) (.selectReference .a 1 2) = true ∧ ((timed 10).port .p2).st ≠ .qualified) ∧
    (taken (timed 10) (.selectReference .a 1 1) = true ∧ ((timed 10).port .p1).st = .qualified) ∧
    taken (timed 10) (.selectReference .a 1 0) = true ∧
    (taken (timed 10) (.setSelectMode .a 1 2) = true ∧ 1 < (2 : Octet).toNat) ∧
    (taken (timed 10) (.setSelectMode .a 1 0) = true ∧ (timed 10).sel.mode = .auto) ∧
    taken (timed 10) (.setSelectMode .a 1 1) = true ∧
    (taken manual (.setSelectMode .a 1 0) = true ∧ manual.sel.mode = .manual) ∧
    (taken (timed 10) (.setRefEnable .a 1 0 1) = true ∧ taken (timed 10) (.setRefEnable .a 1 3 1) = true ∧
      taken (timed 10) (.setRefEnable .a 1 1 2) = true) ∧
    (taken (timed 10) (.setRefEnable .a 1 2 1) = true ∧ ((timed 10).port .p2).enable = true) ∧
    (taken oneOff (.setRefEnable .a 1 2 1) = true ∧ (oneOff.port .p2).enable = false) ∧
    (taken (timed 10) (.setRefEnable .a 1 1 0) = true ∧ (timed 10).sel.selection = some .p1) ∧
    (taken oneOff (.setRefEnable .a 1 2 0) = true ∧ oneOff.sel.selection ≠ some .p2) ∧
    taken (timed 10) (.setRefEnable .a 1 2 0) = true ∧
    (let s := port2 fun r => { r with st := .qualified };
      taken s (.setRefEnable .a 1 2 0) = true ∧ s.sel.selection ≠ some .p2 ∧
      (s.port .p2).st = .qualified) := by decide

/-- Port 2 is QUALIFIED, with a pulse, a message and a disagreement of its own in progress. -/
def busyPort : State :=
  let s := port2 fun r => { r with
    st := .qualified, irregRun := 2, watch := some 9, lastPulse := some 4, leapDis := true
    openPulses := [{ at_ := 3, interval := .regular, label := none }], rx := [0x5A], rxLate := true }
  { s with sel := { s.sel with disagree := true } }

theorem witness_ReferenceRequests_turnedOff :
    taken busyPort (.setRefEnable .a 1 2 0) = true ∧ busyPort.sel.selection ≠ some .p2 ∧
    (busyPort.port .p2).enable = true ∧ (busyPort.port .p2).st = .qualified := by decide

/-- R51, R58: a port turned off keeps nothing of its pulse, message, runs and indication. -/
theorem test_port_turned_off :
    (match exec (.setRefEnable .a 1 2 0) (waits busyPort (.setRefEnable .a 1 2 0)) with
      | .next t => (t.ref2, t.sel.disagree, t.cond.live[Counter.ref2Disqualify.id])
      | _ => (RefPort.reset, true, 0)) =
    ({ RefPort.reset with enable := false, st := .disabled }, false, 1) := by decide

/-- Port 2 takes a label for second `sec`, at the last instant at which a pulse is paired with the edge. -/
def evaluating (st : PortState) (sec goodRun : Nat) : State :=
  port2 fun r => { r with
    st := st, goodRun := goodRun, waiting := some ⟨9677, sec, .none⟩, lastPulse := some 0 }

/-- Port 2 is a CANDIDATE one good evaluation short of two, with no selection, 200 cycles after the edge. -/
def candidate14 : State :=
  { evaluating .candidate 10 14 with
    now := 10000200
    sel := Selector.reset
    tb := { (timed 10).tb with edgeAt := 10000000 } }

/-- Port 2 is selected, holds a label for a second too late, and port 1 is DISABLED. -/
def lastPort : State :=
  { evaluating .qualified 11 0 with
    sel := { Selector.reset with selection := some .p2 }
    ref1 := RefPort.reset }

/-- Port 1 is one good second short of QUALIFIED with no selection, the discipline is FREE and the keyer in
mode `m`; the latest edge was at 10,000,000. -/
def entering (m : Mode) : State :=
  let s := keying m 10
  { s with
    now := 10000000
    sel := Selector.reset
    tb := { s.tb with disc := .free, edgeAt := 10000000 }
    ref1 := { RefPort.reset with
      st := .candidate, goodRun := 15, waiting := some ⟨9677, 10, .none⟩, lastPulse := some 200 } }

theorem witness_PulseEvaluationMovesThePort :
    (let s := evaluating .candidate 10 15;
      s.por = false ∧ s.tb.timeSet = true ∧ s.tb.edgeMade = true ∧ s.tb.stepWaiting = false ∧
      s.tb.edgeAt ≤ s.now + 5000000 ∧ s.now + 5000000 ≤ s.tb.edgeAt + 5000000 ∧
      (s.port .p2).waiting = some ⟨9677, 10, .none⟩ ∧ (s.port .p2).st = .candidate ∧
      s.params.qualCount ≤ (s.port .p2).goodRun + 1) ∧
    (let s := candidate14;
      (s.port .p2).lastPulse = some 0 ∧ 0 ≤ s.now + 0 ∧
      10000000 ≤ s.now + 0 - 0 + s.params.qualWindow ∧ s.now + 0 - 0 ≤ 10000000 + s.params.qualWindow ∧
      (s.port .p2).goodRun + 1 < s.params.qualCount ∧ s.sel.mode = .auto ∧ s.sel.selection = none) ∧
    (let s := lastPort;
      (s.port .p2).st = .qualified ∧ (9677, 11) ≠ (s.tb.day, s.tb.sec) ∧
      s.sel.selection = some .p2 ∧ (s.port Port.p2.other).st ≠ .qualified) ∧
    (∀ m ∈ [Mode.timeCode, .carrierOnly], let s := entering m;
      s.params.qualCount ≤ (s.port .p1).goodRun + 1 ∧ s.sel.mode = .auto ∧ s.sel.selection = none ∧
      s.now + 64 - s.tb.edgeAt ≤ s.params.slew ∧ s.params.slew < s.now + 65 - s.tb.edgeAt ∧
      s.key.nearTimeCode = decide (m = .timeCode)) := by decide

/-- Port 2 is QUALIFIED with its runs one short of their limits; port 1 is QUALIFIED, and its offset to the
latest edge, at 10,000,000, is -100. -/
def judged (label : Option Label) (last : Nat) : State :=
  { port2 fun r => { r with
      st := .qualified, irregRun := 3, unlabRun := 2, waiting := label, lastPulse := some last } with
    now := 10000000
    ref1 := { (timed 10).ref1 with edgeOffset := some (-100) }
    tb := { (timed 10).tb with edgeAt := 10000000 } }

/-- The label of the second in progress in `judged`. -/
def rightLabel : Label where
  day := 9677
  sec := 10
  leap := .none

theorem witness_PulseEvaluation_runs :
    (let s := judged (some rightLabel) 200;
      s.por = false ∧ s.tb.timeSet = true ∧ s.tb.edgeMade = true ∧ s.tb.stepWaiting = false ∧
      s.tb.edgeAt ≤ s.now + 0 ∧ s.now + 0 ≤ s.tb.edgeAt + 5000000 ∧ (s.port .p2).st = .qualified ∧
      10000000 ≤ s.now + 0 - 200 + s.params.qualWindow ∧
      ¬10000000 ≤ s.now + 0 - 201 + s.params.qualWindow ∧
      s.params.disqCount ≤ (s.port .p2).irregRun + 1 ∧ 3 ≤ (s.port .p2).unlabRun + 1 ∧
      (s.port Port.p2.other).st = .qualified ∧ (s.port Port.p2.other).edgeOffset = some (-100)) ∧
    (evaluating .candidate 11 3).ref2.st = .candidate ∧
    (judged none 200).ref2.waiting = none ∧ (timed 10).ref1.edgeOffset = none := by decide

/-- R49, R58: an irregular run or an unlabelled run at its limit takes the port to CANDIDATE; short of it
the difference to port 1 is judged, 100 being an agreement and 101 a disagreement. -/
theorem test_runs_and_agreement :
    ([(some rightLabel, 200, 0), (some rightLabel, 201, 0), (none, 200, 0), (some rightLabel, 401, 201)].map
      fun (x : Option Label × Nat × Nat) =>
        match exec (.refPulse .p2 x.2.2) (judged x.1 x.2.1) with
        | .next t => (t.ref2.st, t.ref2.irregRun, t.sel.diff, t.sel.disagree,
            t.cond.live[Counter.ref2Disqualify.id])
        | _ => (.absent, 0, none, false, 9)) =
    [(.qualified, 0, some 100, false, 0), (.candidate, 0, none, false, 1), (.candidate, 0, none, false, 1),
      (.qualified, 0, some 101, true, 0)] := by decide

/-- Time is UNSET, nothing is selected, and port 2 is a CANDIDATE one good second short of QUALIFIED, with a
label that is no second in progress; the latest edge is now. -/
def unsetCandidate : State :=
  let s := evaluating .candidate 12 15
  { s with
    now := 10000000
    tb := { s.tb with timeSet := false, disc := .free, edgeAt := 10000000 }
    sel := Selector.reset
    ref1 := RefPort.reset }

/-- Port 1 is a CANDIDATE one good second short of QUALIFIED, whose pulse waits for the next edge, and nothing
is selected. -/
def pulseEnters (set : Bool) : State :=
  let s := pulseWaits 10 9999935 (some { rightLabel with sec := 11 })
  { s with
    tb := { s.tb with timeSet := set, disc := .free }
    sel := Selector.reset
    ref1 := { s.ref1 with st := .candidate, goodRun := 15 } }

/-- Both ports are QUALIFIED and port 1, which is selected, has a wrong label on its waiting pulse. -/
def pulseLeaves : State :=
  let s := pulseWaits 10 9999936 (some rightLabel)
  { s with ref2 := { s.ref2 with st := .qualified } }

theorem witness_PulseEvaluation_unset :
    (let s := unsetCandidate;
      s.por = false ∧ s.tb.timeSet = false ∧ s.tb.acq = none ∧ s.tb.edgeMade = true ∧
      s.tb.edgeAt ≤ s.now + 0 ∧ s.now + 5000000 ≤ s.tb.edgeAt + 5000000 ∧
      (s.port .p2).st = .candidate ∧ s.params.qualCount ≤ (s.port .p2).goodRun + 1 ∧
      s.sel.mode = .auto ∧ s.sel.selection = none) ∧
    (∀ b, let s := pulseEnters b;
      s.por = false ∧ s.tb.stepWaiting = false ∧ (s.port .p1).openPulses.length = 1 ∧
      (s.port .p1).st = .candidate ∧ s.params.qualCount ≤ (s.port .p1).goodRun + 1 ∧
      (s.port Port.p1.other).openPulses = [] ∧ s.sel.selection = none) ∧
    (let s := pulseLeaves;
      s.por = false ∧ s.tb.stepWaiting = false ∧ (s.port .p1).st = .qualified ∧
      (s.port .p1).openPulses.length = 1 ∧ (s.port Port.p1.other).st = .qualified ∧
      s.sel.selection = some .p1 ∧ s.sel.mode = .auto) := by decide

/-- R36, R47, R48: while time is UNSET no label is compared; the good second that makes QUAL_COUNT has the port
selected and acquisition wait on it, at a pulse and at the edge that a pulse waited for. -/
theorem test_qualifies_while_unset :
    ([exec (.refPulse .p2 0) unsetCandidate,
        exec .secondEdge (pulseEnters false)].map fun x =>
      match x with
      | .next t => (t.ref1.st, t.ref2.st, t.tb.acq)
      | _ => (.absent, .absent, none)) =
    [(.absent, .qualified, some .p2), (.qualified, .absent, some .p1)] := by decide

/-- R30, R33, R54: the pulse that waited for the edge takes its port to QUALIFIED and LOCKED with a phase step
for its offset of 65; a wrong label takes the selection to the other port, with REF_SWITCH. -/
theorem test_edge_moves_the_selection :
    ([pulseEnters true, pulseLeaves].map fun s =>
      match exec .secondEdge s with
      | .next t => (t.ref1.st, t.sel.selection, t.tb.disc, t.tb.stepWaiting, t.cond.viewA.getLsbD 15)
      | _ => (.absent, none, .free, false, false)) =
    [(.qualified, some .p1, .locked, true, true), (.candidate, some .p2, .locked, false, true)] := by decide

/-- Both ports are QUALIFIED, and their pulses, `apart` cycles from one another, wait for the next edge. -/
def bothPulsesWait (apart : Nat) : State :=
  let s := pulseWaits 10 9999936 none
  { s with ref2 := { s.ref1 with
      openPulses := [{ at_ := 9999936 - apart, interval := .regular, label := none }] } }

theorem witness_PulseEvaluation_both :
    (bothPulsesWait 100).por = false ∧ (bothPulsesWait 100).tb.stepWaiting = false ∧
    ((bothPulsesWait 100).port .p1).openPulses.length = 1 ∧
    ((bothPulsesWait 100).port Port.p1.other).openPulses.length = 1 := by decide

/-- R58: the pulses of both ports that waited for one edge are judged against each other there. -/
theorem test_edge_judges_agreement :
    ([100, 101].map fun n =>
      match exec .secondEdge (bothPulsesWait n) with
      | .next t => (t.ref1.st, t.ref2.st, t.sel.diff, t.sel.disagree)
      | _ => (.absent, .absent, none, false)) =
    [(.qualified, .qualified, some 100, false), (.qualified, .qualified, some 101, true)] := by decide

/-- R50: two pulses of port 2 before a held-back edge qualify the port and then disqualify it in one event;
that exit is counted. -/
theorem test_exit_within_one_edge :
    (let u : OpenPulse := { at_ := 6000000, interval := .regular, label := some { rightLabel with sec := 11 } }
     let s := port2 fun r => { r with
       st := .candidate, goodRun := 15
       openPulses := [u, { u with at_ := 6100000, label := some rightLabel }] }
     match exec .secondEdge s with
      | .next t => (t.ref2.st, t.cond.live[Counter.ref2Disqualify.id], t.ref2.lastOffset)
      | _ => (.absent, 0, 0)) = (.candidate, 1, 3900000) := by decide

/-- 2.5: an offset of -200 on entry to LOCKED in TIME_CODE takes the correction +64 at once. -/
theorem test_slew_on_entry :
    (match exec (.refPulse .p1 200) (entering .timeCode) with
      | .next t => (t.tb.disc, t.tb.corr, t.tb.slewing, t.tb.stepWaiting,
          t.cond.live[Counter.slewSeconds.id])
      | _ => (.free, 0, false, true, 0)) = (.locked, 64, true, false, 1) := by decide

/-- 2.5: in CARRIER_ONLY the same lock waits for a phase step. -/
theorem test_step_on_entry :
    (match exec (.refPulse .p1 200) (entering .carrierOnly) with
      | .next t => (t.tb.disc, t.tb.corr, t.tb.stepWaiting)
      | _ => (.free, 1, false)) = (.locked, 0, true) := by decide

/-- A port's last label warns of an inserted second, with a leap entry for the month or without one. -/
def warned (kind : Option ChangeKind) : State :=
  let e := kind.map fun k => { zoneEntry 1 (9678 * 1440) false with kind := k, newZone := none }
  { timed 49 with
    ref1 := { (timed 49).ref1 with last := some { rightLabel with leap := .insert } }
    sched := { Schedule.reset with entries := e.toList } }

theorem witness_PulseEvaluation_leap :
    (∀ k ∈ [some ChangeKind.leapInsert, some .leapDelete, none], ∀ p,
      ((warned k).port p).st = .qualified → ((warned k).port p).last.isSome = true) ∧
    lastOfMonth (warned none).tb.day + 1 = 9678 ∧ (warned none).ref1.leapDis = false := by
  refine ⟨?_, by decide, rfl⟩
  intro k hk p
  simp only [List.mem_cons, List.not_mem_nil, or_false] at hk
  rcases hk with rfl | rfl | rfl <;> cases p <;> decide

/-- R59: the warning agrees with an insertion alone. -/
theorem test_leap_check :
    ([some ChangeKind.leapInsert, some .leapDelete, none].map fun k =>
      ((warned k).leapCheck.ref1.leapDis, (warned k).leapCheck.cond.viewA.getLsbD 14)) =
    [(false, false), (true, true), (true, true)] := by decide

/-! ## Witnesses: the synthesizer and the keyer -/

/-- The synthesizer in state `st`, with its runs. -/
def synthIn (st : SynthState) (inRun outRun : Nat) : State :=
  { State.reset with synth := { Synth.reset with st := st, inRun := inRun, outRun := outRun } }

theorem witness_SynthRequestsAct :
    (taken (synthIn .acquiring 0 0) (.setSynth .a 1 228 125 0 0) = true ∧
      (synthIn .acquiring 0 0).synth.st ≠ .off) ∧
    (taken State.reset (.setSynth .a 1 16384 125 0 0) = true ∧ 16383 < (16384 : BitVec 16).toNat ∧
      taken State.reset (.setSynth .a 1 228 1024 0 0) = true ∧
      taken State.reset (.setSynth .a 1 228 125 8 0) = true ∧
      taken State.reset (.setSynth .a 1 228 125 0 4) = true) ∧
    taken State.reset (.setSynth .a 1 228 125 0 3) = true ∧
    (taken State.reset (.setSynth .a 1 0 0 0 0) = true ∧ 10000000 * 1 < 16000000 * 1) ∧
    (taken State.reset (.setSynth .a 1 16 10 3 0) = true ∧ 16000000 * 10 ≤ 10000000 * 16 ∧
      10000000 * 16 < 30000 * (10 * (256 * 2 ^ 3))) ∧
    (taken State.reset (.setSynth .a 1 16 10 0 0) = true ∧ 10000000 * 16 ≤ 32000000 * 10 ∧
      30000 * (10 * (256 * 2 ^ 0)) ≤ 10000000 * 16 ∧ 10000000 * 16 ≤ 150000 * (10 * (256 * 2 ^ 0))) ∧
    (taken State.reset (.synthOn .a 1) = true ∧ State.reset.synth.st = .off) ∧
    taken (synthIn .locked 0 0) (.synthOn .a 1) = true ∧
    taken State.reset (.synthOff .a 1) = true ∧
    (taken (keying .carrierOnly 0) (.synthOff .a 1) = true ∧
      (keying .carrierOnly 0).key.mode ≠ .offAir ∧ (keying .carrierOnly 0).synth.st ≠ .off) ∧
    (taken (synthIn .locked 0 0) (.synthOff .a 1) = true ∧
      (synthIn .locked 0 0).key.mode = .offAir ∧ (synthIn .locked 0 0).synth.st = .locked) ∧
    (synthIn .acquiring 0 0).synth.st = .acquiring := by decide

theorem witness_ComparisonPeriodIsJudged :
    (State.reset.por = false ∧ State.reset.synth.st = .off) ∧
    (16 * 1 ≤ 16 ∧ ¬16 * 1 ≤ 15) ∧
    ((synthIn .acquiring 254 0).synth.st = .acquiring ∧ (synthIn .acquiring 254 0).synth.inRun < 255 ∧
      255 ≤ (synthIn .acquiring 255 0).synth.inRun) ∧
    ((synthIn .locked 0 2).synth.st = .locked ∧ (synthIn .locked 0 2).synth.outRun < 3 ∧
      3 ≤ (synthIn .locked 0 3).synth.outRun) := by decide

theorem witness_CarrierIsMadeWhileOnAir : (keying .timeCode 10).CarrierMade :=
  ⟨by decide, by decide⟩

theorem witness_SetModeIsCheckedAndPending :
    (taken State.reset (.setMode .a 1 4) = true ∧ 3 < (4 : Octet).toNat) ∧
    (taken State.reset (.setMode .a 1 0) = true ∧ State.reset.key.mode = .offAir) ∧
    (taken (keying .timeCode 0) (.setMode .a 1 0) = true ∧ (keying .timeCode 0).key.mode ≠ .offAir) ∧
    (taken (keying .timeCode 0) (.setMode .a 1 2) = true ∧ (keying .timeCode 0).key.mode = .timeCode) ∧
    (taken State.reset (.setMode .a 1 1) = true ∧ State.reset.synth.st ≠ .locked) ∧
    (let s := { keying .offAir 0 with tb := Timebase.reset };
      taken s (.setMode .a 1 2) = true ∧ s.synth.st = .locked ∧ s.transmitterReady = true ∧
      s.tb.timeSet = false) ∧
    (taken (keying .offAir 0) (.setMode .a 1 2) = true ∧ (keying .offAir 0).synth.st = .locked ∧
      (keying .offAir 0).transmitterReady = true ∧ (keying .offAir 0).tb.timeSet = true) ∧
    taken (keying .carrierOnly 0) (.setMode .a 1 3) = true := by decide

theorem witness_KillCarrierCutsAtOnce :
    (taken State.reset (.setHold .a 1 2) = true ∧ 1 < (2 : Octet).toNat) ∧
    taken State.reset (.setHold .a 1 1) = true ∧
    (taken (keying .timeCode 0) (.killCarrier .a 1) = true ∧ (keying .timeCode 0).key.mode = .timeCode) ∧
    (taken State.reset (.killCarrier .b 1) = true ∧ State.reset.key.mode = .offAir) ∧
    ((keying .timeCode 0).key.mode ≠ .testPattern ∧ (keying .offAir 0).key.mode ≠ .timeCode) := by decide

/-- R18, R131: a change of mode into TEST_PATTERN seeds the generator and any other keeps it. -/
theorem test_mode_change_and_generator :
    ([(Mode.carrierOnly, Mode.testPattern), (.testPattern, .carrierOnly), (.offAir, .timeCode)].map fun x =>
      let s := keying x.1 10
      (({ s with key := { s.key with gen := 5 } }).changeMode x.2).key.gen) = [0x7FFF, 5, 5] := by decide

/-- Off air under a maintenance record that runs to minute 100 of day 9678. -/
def maintained : State :=
  { keying .offAir 10 with key := { (keying .offAir 10).key with
      maint := some { endDay := 9678, endMinute := 100, resume := .timeCode, due := false } } }

theorem witness_MaintenanceIsCheckedInOrder :
    (taken (timed 10) (.maintenance .a 1 36525 0) = true ∧
      taken (timed 10) (.maintenance .a 1 9677 1440) = true) ∧
    (taken State.reset (.maintenance .a 1 36524 1439) = true ∧ State.reset.tb.timeSet = false) ∧
    (taken (timed 10) (.maintenance .a 1 9677 0) = true ∧
      9677 * 1440 + 0 ≤ (timed 10).tb.day * 1440 + minuteOfDay (timed 10).tb.sec ∧
      taken (timed 10) (.maintenance .a 1 9684 1) = true ∧
      (timed 10).tb.day * 1440 + minuteOfDay (timed 10).tb.sec + 10080 < 9684 * 1440 + 1) ∧
    (taken (timed 10) (.maintenance .a 1 9684 0) = true ∧
      9684 * 1440 + 0 ≤ (timed 10).tb.day * 1440 + minuteOfDay (timed 10).tb.sec + 10080 ∧
      (timed 10).key.mode = .offAir ∧ (timed 10).key.maint = none) ∧
    (taken (keying .timeCode 10) (.maintenance .a 1 9677 1) = true ∧
      (keying .timeCode 10).key.mode ≠ .offAir) ∧
    (taken maintained (.maintenance .a 1 9677 1) = true ∧ maintained.key.maint.isSome = true) := by
  decide

theorem witness_LineEventsOfTheKeyer :
    ({ Keyer.reset with mark := [⟨true, 5⟩] }).mark = ⟨true, 5⟩ :: [] ∧ State.reset.key.mark = [] ∧
    State.reset.por = false := by decide

/-- A keyer with a mode pending, off air. -/
def pendingKeyer (m : Mode) : Keyer := { Keyer.reset with pendingMode := some m }

/-- A keyer on air that waits to go off. -/
def leavingKeyer : Keyer :=
  { Keyer.reset with mode := .carrierOnly, offReq := some { until_ := none, deferred := false } }

theorem pendingKeyer_ordered : (pendingKeyer .timeCode).Ordered :=
  ⟨fun _ h => by cases h; decide, nofun, nofun, nofun, nofun, by simp [pendingKeyer, Keyer.reset]⟩

theorem leavingKeyer_ordered : leavingKeyer.Ordered :=
  ⟨nofun, by decide, nofun, nofun, nofun, by simp [leavingKeyer, Keyer.reset]⟩

theorem maintained_ordered : maintained.key.Ordered :=
  ⟨nofun, nofun, fun _ h => by cases h; decide, nofun, nofun, fun h => absurd rfl h⟩

theorem keying_ordered : (keying .timeCode 60).key.Ordered :=
  ⟨nofun, nofun, nofun, nofun, fun _ => rfl, fun _ => rfl⟩

theorem witness_BoundaryActsOnWhatIsHeld :
    (let s := { keying .offAir 60 with key := pendingKeyer .timeCode };
      s.key.pendingMode = some .timeCode ∧ s.onAirChecks .timeCode = true) ∧
    ({ State.reset with key := pendingKeyer .timeCode }).onAirChecks .timeCode = false ∧
    (let s := { keying .carrierOnly 60 with key := leavingKeyer };
      s.key.offReq.isSome = true ∧ s.key.hold = false ∧ s.sched.entries = [] ∧
      ({ s with key := { leavingKeyer with hold := true } }).key.hold = true) ∧
    ((zoneEntry 1 100 true).announcing = true) ∧
    (maintained.key.maint.isSome = true ∧ maintained.key.windowReport = false ∧
      maintained.tb.minute < 9678 * 1440 + 100 ∧ maintained.onAirChecks .timeCode = true) ∧
    ({ maintained with synth := Synth.reset }).onAirChecks .timeCode = false ∧
    (let s := keying .timeCode 60;
      s.key.pendingMode = none ∧ s.key.offReq = none ∧ s.key.maint = none ∧
      s.key.mode = .timeCode ∧ s.key.current = none ∧ s.comp.next = none ∧ s.tb.timeSet = true) := by
  decide

/-- The record that the composer builds for minute `f` at second `sec`. -/
def recordAt (sec f : Nat) : FrameRecord := (timed sec).frameRecord f

/-- `keying .timeCode 10` in the frame of its minute. -/
def inFrame (sec idx : Nat) : State :=
  let s := keying .timeCode sec
  let f := { record := recordAt 10 (9677 * 1440), edgeAt := 0, edgeDay := 9677, edgeSec := 0 : Keyed }
  { s with key := { s.key with current := some f, secIdx := idx } }

theorem witness_BoundaryActs_record :
    (inFrame 59 59).key.current.isSome = true ∧
    (let s := { keying .timeCode 60 with
        comp := { Composer.reset with next := some (recordAt 50 (9677 * 1440 + 1)) } };
      ∃ r, s.comp.next = some r ∧ r.day = s.tb.day ∧ r.minute = minuteOfDay s.tb.sec) :=
  ⟨by decide, _, rfl, by decide, by decide⟩

theorem witness_BoundaryActs_edge :
    (∃ r, ({ Composer.reset with next := some (recordAt 50 (9677 * 1440 + 2)) } : Composer).next = some r ∧
      ¬r.minute = minuteOfDay 60) ∧
    ((inFrame 59 59).por = false ∧ (inFrame 59 59).tb.stepWaiting = false ∧
      State.reset.por = false ∧ State.reset.tb.stepWaiting = false) :=
  ⟨⟨_, rfl, by decide⟩, by decide⟩

/-- R127, R128, R129: the edge that begins minute 1 sends the M of its record, or keys a blank minute where
the slot holds the record of minute 2, and the frame of minute 0 enters the sent history. -/
theorem test_boundary_edge :
    ([1, 2].map fun n =>
      match exec .secondEdge { inFrame 59 59 with
          comp := { Composer.reset with next := some (recordAt 50 (9677 * 1440 + n)) } } with
      | .next t => (t.key.mark.length, t.key.current.isSome, t.key.history.length,
          t.cond.viewA.getLsbD 20)
      | _ => (0, false, 0, false)) = [(3, true, 1, false), (0, false, 1, true)] := by decide

/-- `s` with the record of minute `n` of day 9677 in the next-frame slot. -/
def slotted (n : Nat) (s : State) : State :=
  { s with comp := { Composer.reset with next := some (recordAt 50 (9677 * 1440 + n)) } }

/-- Minute 1 has begun off air, with TIME_CODE pending. -/
def enteringFrame : State := { keying .offAir 60 with key := pendingKeyer .timeCode }

/-- Minute 1 has begun off air, with a maintenance record for TIME_CODE that is due. -/
def resuming : State :=
  { keying .offAir 60 with key := { (keying .offAir 60).key with
      maint := some { endDay := 9677, endMinute := 1, resume := .timeCode, due := true } } }

/-- Minute 1 has begun in TIME_CODE, with an off-air request under SET_HOLD. -/
def deferring : State :=
  { keying .timeCode 60 with key := { (keying .timeCode 60).key with
      hold := true, offReq := some { until_ := none, deferred := false } } }

theorem resuming_ordered : resuming.key.Ordered :=
  ⟨nofun, nofun, fun _ h => by cases h; decide, nofun, nofun, fun h => absurd rfl h⟩

theorem deferring_ordered : deferring.key.Ordered :=
  ⟨nofun, by decide, nofun, nofun, nofun, fun _ => rfl⟩

theorem witness_BoundaryActs_timeCode :
    ∀ s ∈ [enteringFrame, resuming, deferring],
      (slotted 1 s).keyerBoundary.key.mode = .timeCode ∧
      ∃ r, (slotted 1 s).comp.next = some r ∧ s.tb.timeSet = true ∧ r.day = s.tb.day ∧
        r.minute = minuteOfDay s.tb.sec := by
  intro s hs
  simp only [List.mem_cons, List.not_mem_nil, or_false] at hs
  rcases hs with rfl | rfl | rfl <;> exact ⟨by decide, _, rfl, by decide, by decide, by decide⟩

/-- R102, R122, R128: a keyer that enters TIME_CODE at this boundary by a pending mode or by a resume, and one
that stays in it under a deferred request, take the record of the minute, or key a blank minute over
another's. -/
theorem test_boundary_into_time_code :
    (∀ s ∈ [enteringFrame, resuming, deferring], ∀ n ∈ [1, 2],
      let t := (slotted n s).keyerBoundary
      (t.key.mode, t.key.current.isSome, t.cond.viewA.getLsbD 20) =
        (Mode.timeCode, decide (n = 1), decide (n = 2))) := by decide

theorem witness_SecondBegunTakesItsMark :
    (∀ m ∈ [Mode.offAir, .carrierOnly, .timeCode, .testPattern], let s := keying m 58;
      s.por = false ∧ s.tb.stepWaiting = false ∧ s.tb.pendingStep = none ∧ s.tb.timeSet = true ∧
      secondOfMinute s.tb.sec + 1 < s.tb.minLen ∧ secondOfMinute (s.tb.sec + 1) ≠ 0 ∧
      s.key.mode = m ∧ s.key.current = none) ∧
    ((inFrame 58 58).key.current.map (·.record.syms[59]?) = some (some .zero) ∧
      (inFrame 58 59).key.current.map (·.record.syms.length) = some 60) := by decide

/-- Time is UNSET, in second `sec` of the free minute, on air in mode `m`. -/
def freeRunning (m : Mode) (sec : Nat) : State :=
  { keying m 10 with tb := { Timebase.reset with freeSec := sec } }

theorem witness_SecondBegun_free :
    ∀ m ∈ [Mode.offAir, .carrierOnly, .timeCode, .testPattern], let s := freeRunning m 58;
      s.por = false ∧ s.tb.stepWaiting = false ∧ s.tb.pendingStep = none ∧ s.tb.timeSet = false ∧
      s.tb.freeSec ≠ 59 ∧ s.key.mode = m := by decide

/-- R18, R25: in TEST_PATTERN with time UNSET a second inside the free minute takes the mark of a 1 from the
seed, and the generator steps; in CARRIER_ONLY neither happens. -/
theorem test_free_minute_pattern :
    ([Mode.testPattern, .carrierOnly].map fun m =>
      match exec .secondEdge (freeRunning m 30) with
      | .next t => (t.key.mark.map fun i => (i.reduced, i.endsAt - t.now), t.key.gen)
      | _ => ([], 0)) = [([(true, 2000000)], 0x7FFE), ([], 0x7FFF)] := by decide

theorem witness_KeyerStateStaysOrdered : ({ State.reset with key := leavingKeyer }).key.Ordered :=
  leavingKeyer_ordered

theorem witness_OnAirNeedsLockAndReadiness :
    let s := { keying .offAir 59 with key := pendingKeyer .carrierOnly };
    ∃ t, exec .secondEdge s = .next t ∧ t.key.mode ≠ s.key.mode ∧ t.key.mode ≠ .offAir :=
  ⟨_, rfl, by decide, by decide⟩

/-! ## Witnesses: the schedule and the composer -/

/-- `timed sec` with a table of entries. -/
def scheduled (sec : Nat) (xs : List Entry) : State :=
  { timed sec with sched := { Schedule.reset with entries := xs } }

theorem witness_ChangesArePostedAndWithdrawn :
    let n := 9677 * 1440;
    taken State.reset (.postChange .a 1 2 9677 10 3 0) = true ∧ State.reset.tb.timeSet = false ∧
    (taken (timed 49) (.postChange .a 1 3 9677 10 0 0) = true ∧
      taken (timed 49) (.postChange .a 1 2 9677 0 0 0) = true ∧
      taken (timed 49) (.postChange .a 1 0 9676 0 0 0) = true ∧ isLastOfMonth 9676 = false ∧
      taken (timed 49) (.postChange .a 1 1 36524 0 0 0) = true) ∧
    (taken (timed 49) (.postChange .a 1 2 9677 1 3 0) = true ∧ (timed 49).tb.minute = n ∧
      taken (timed 50) (.postChange .a 1 2 9677 2 3 0) = true) ∧
    (taken (scheduled 49 [zoneEntry 9 (n + 100) false]) (.postChange .a 1 2 9677 41 3 60) = true ∧
      (n + 41 < n + 100 + 60 ∧ n + 100 < n + 41 + 60)) ∧
    (taken (scheduled 49 [zoneEntry 9 (n + 100) false]) (.postChange .a 1 2 9677 40 3 60) = true ∧
      ¬(n + 100 < n + 40 + 60)) ∧
    (taken (scheduled 49 (List.replicate 16 (zoneEntry 9 (n + 100) false)))
      (.postChange .a 1 0 9677 0 0 0) = true ∧ isLastOfMonth 9677 = true ∧ n < (9677 + 1) * 1440) ∧
    taken (timed 49) (.postChange .a 1 1 9677 1439 0 1440) = true ∧
    taken (timed 49) (.withdrawChange .b 1 0) = true ∧
    taken (timed 49) (.withdrawChange .b 1 9) = true ∧
    (taken (scheduled 49 [zoneEntry 9 (n + 100) true]) (.withdrawChange .b 1 9) = true ∧
      (scheduled 49 [zoneEntry 9 (n + 100) true]).sched.entries =
        [] ++ zoneEntry 9 (n + 100) true :: [] ∧ (zoneEntry 9 (n + 100) true).number = (9 : Octet).toNat) ∧
    (taken (scheduled 49 [zoneEntry 9 (n + 100) false]) (.withdrawChange .b 1 9) = true ∧
      (zoneEntry 9 (n + 100) false).announcing = false) := by decide

/-- R66: with 255 and 1 held, an acceptance from next entry number 255 takes 2 and leaves 3. -/
theorem test_entry_number :
    (let s := { scheduled 49 [zoneEntry 255 20000000 false, zoneEntry 1 20001000 false] with
        sched := { Schedule.reset with
          nextNum := 255, entries := [zoneEntry 255 20000000 false, zoneEntry 1 20001000 false] } }
     let c := Instr.postChange .a 1 2 9677 40 3 60
     match exec c (waits s c) with
      | .next t => (t.sched.entries.map (·.number), t.sched.nextNum)
      | _ => ([], 0)) = ([2, 255, 1], 3) := by decide

theorem witness_ZoneRequestsAct :
    (taken (timed 0) (.setZone .a 1 4 0) = true ∧ 3 < (4 : Octet).toNat) ∧
    (taken (keying .timeCode 0) (.setZone .a 1 0 0) = true ∧ (keying .timeCode 0).sched.zone = 0) ∧
    (taken (scheduled 0 [zoneEntry 1 20000000 true]) (.setZone .a 1 1 0) = true ∧
      (zoneEntry 1 20000000 true).newZone = some (1 : Octet).toNat) ∧
    (taken (timed 0) (.setZone .a 1 3 0) = true ∧ (timed 0).sched.offsets[(3 : Fin 4)] = 0) ∧
    (taken (timed 0) (.setZone .a 1 3 57) = true ∧ 56 < (57 : Octet).toInt) ∧
    (taken (timed 0) (.setZone .a 1 3 0xCF) = true ∧ (0xCF : Octet).toInt < -48) ∧
    taken (timed 0) (.selectZone .a 1 4) = true ∧
    taken (keying .timeCode 0) (.selectZone .a 1 3) = true ∧
    (taken (timed 0) (.selectZone .a 1 3) = true ∧ (timed 0).key.nearTimeCode = false) := by decide

theorem witness_ScheduleStaysOrdered :
    (scheduled 0 [zoneEntry 1 100 false, zoneEntry 2 160 false]).sched.Ordered :=
  ⟨by decide, by decide, by decide, nofun, by
    intro x hx z hz
    simp only [scheduled, List.mem_cons, List.not_mem_nil, or_false] at hx
    rcases hx with rfl | rfl <;> cases hz <;> decide⟩

theorem witness_CompositionProcessesTheSchedule :
    (∀ x ∈ (scheduled 50 [zoneEntry 1 101 false]).sched.entries, 100 < x.e) ∧
    ((scheduled 50 [zoneEntry 1 100 true, zoneEntry 2 200 false]).sched.entries.filter
        (fun y => y.e ≤ 100) = [zoneEntry 1 100 true] ∧
      (scheduled 50 [zoneEntry 1 100 true]).sched.retired.length < 8) ∧
    (100 < (zoneEntry 1 160 false).e ∧ (zoneEntry 1 160 false).e ≤ 100 + (zoneEntry 1 160 false).lead ∧
      ¬(zoneEntry 1 161 false).e ≤ 100 + (zoneEntry 1 161 false).lead) ∧
    ((scheduled 49 []).por = false ∧ (scheduled 49 []).tb.stepWaiting = false ∧
      (scheduled 49 []).tb.pendingStep = none ∧ (scheduled 49 []).tb.timeSet = true ∧
      secondOfMinute (scheduled 49 []).tb.sec = 49 ∧ 50 < (scheduled 49 []).tb.minLen) := by decide

/-- A leap entry of kind `k` for the minute `e`. -/
def leapEntry (k : ChangeKind) (e : Nat) (announcing altered : Bool) : Entry :=
  { zoneEntry 1 e announcing with kind := k, newZone := none, altered := some altered }

/-- R78, R96: the composition for the last minute before E flags the altered minute, and its frame has 61
seconds; for the minute before that one it has 60. -/
theorem test_altered_minute :
    ([9678 * 1440 - 1, 9678 * 1440 - 2].map fun f =>
      let t := (scheduled 50 [leapEntry .leapInsert (9678 * 1440) true false]).processSchedule f
      (t.sched.entries.map (·.altered), (t.frameRecord f).length)) =
    [([some true], 61), ([some false], 60)] := by decide

/-- Two zone changes and an applied leap second, all due at minute 100 or before, after eight retirements. -/
def overdue : State :=
  let s := scheduled 50 [
    { zoneEntry 2 90 true with newZone := some 2 }, leapEntry .leapInsert 95 true true,
    { zoneEntry 3 100 true with newZone := some 3 }, zoneEntry 4 200 false]
  { s with sched := { s.sched with
      retired := (List.range 8).map fun n => (zoneEntry (10 + n) 1 true).retire .applied none 0 0 } }

theorem witness_CompositionProcesses_several :
    overdue.sched.entries.filter (fun y => y.e ≤ 100) =
      [{ zoneEntry 2 90 true with newZone := some 2 }, leapEntry .leapInsert 95 true true] ++
        { zoneEntry 3 100 true with newZone := some 3 } :: [] ∧
    (overdue.sched.entries.filter (fun y => y.e ≤ 95)).map (·.newZone) = [some 2] ++ none :: [] ∧
    overdue.sched.entries.filter (fun y => y.e ≤ 89) = [] := by decide

/-- R76, R77, R82: three entries retire in table order, the zone is that of the later zone change, and the
newest eight records stay. -/
theorem test_several_retire :
    (let t := overdue.processSchedule 100;
      (t.sched.retired.map fun r => (r.number, r.outcome), t.sched.zone, t.sched.entries.length)) =
    ([(13, .applied), (14, .applied), (15, .applied), (16, .applied), (17, .applied),
      (2, .appliedLate), (1, .applied), (3, .applied)], 3, 1) := by decide

/-- R101: the edge that begins second 50 of minute 5 hands over a record for minute 6. -/
theorem test_record_handed_over :
    (match exec .secondEdge (timed 349) with
      | .next t => (t.comp.next.map (·.minute), t.tb.handed)
      | _ => (none, none)) = (some 6, some { length := 60, minute := 9677 * 1440 + 6 }) := by decide

/-- R59, R90: the edge that begins second 50 checks the warning of a QUALIFIED port against the schedule. -/
theorem test_leap_checked_at_composition :
    (match exec .secondEdge { scheduled 49 [leapEntry .leapInsert (9678 * 1440) false false] with
        ref1 := { (timed 49).ref1 with last := some { day := 9677, sec := 48, leap := .none } } } with
      | .next t => (t.ref1.leapDis, t.ref2.leapDis, t.cond.viewB.getLsbD 14)
      | _ => (false, true, false)) = (true, false, true) := by decide

theorem witness_NoticeRequestsAct :
    (taken State.reset (.writeNotice .a 1 2 []) = true ∧ 1 < (2 : Octet).toNat) ∧
    (taken State.reset (.writeNotice .a 1 0 [0x41]) = true ∧ State.reset.comp.active = .s0) ∧
    (taken State.reset (.writeNotice .a 1 1 (List.replicate 33 0x41)) = true ∧
      taken State.reset (.writeNotice .a 1 1 [0x1F]) = true ∧
      taken State.reset (.writeNotice .a 1 1 [0x7F]) = true ∧ State.reset.comp.active ≠ .s1) ∧
    (taken State.reset (.writeNotice .a 1 1 (List.replicate 32 0x7E)) = true ∧
      0x20 ≤ (0x7E : Octet).toNat ∧ (0x7E : Octet).toNat ≤ 0x7E) ∧
    (taken State.reset (.selectNotice .a 1 2) = true ∧ taken State.reset (.selectNotice .a 1 0) = true ∧
      taken State.reset (.selectNotice .a 1 1) = true) ∧
    ((recordAt 10 5).low = false ∧ ({ recordAt 10 5 with low := true, octIdx := 1 }).low = true ∧
      ((1 : Int) + 1 < [0x55#8, 0x54, 0x43].length ∧
        ([0x55#8, 0x54].length : Int) ≤ 1 + 1)) := by decide

theorem witness_ComposedFrameIsGood :
    (let s := scheduled 50 [zoneEntry 2 200 false, leapEntry .leapInsert (9678 * 1440) true true];
      s.sched.entries = [zoneEntry 2 200 false] ++ leapEntry .leapInsert (9678 * 1440) true true :: [] ∧
      (∀ y ∈ [zoneEntry 2 200 false], y.announcing = false)) ∧
    (zoneEntry 1 100 true).announcing = true ∧ (zoneEntry 1 100 true).newZone = some 1 ∧
    (scheduled 50 []).sched.entries = [] := by decide

/-- R92, R93 at the ends of months: days 58 to 60 and 365 to 366 of the century, and the last. -/
theorem test_calendar_ends :
    ([58, 59, 60, 365, 366, 424, 425, 36524].map fun d => (dayOfMonth d, monthOf d, yearOfCentury d)) =
    [(28, 2, 0), (29, 2, 0), (1, 3, 0), (31, 12, 0), (1, 1, 1), (28, 2, 1), (1, 3, 1), (31, 12, 99)] := by
  decide

/-! ## Witnesses: the monitor -/

/-- The detector in state `d` with the line at `level`. -/
def heard (d : Detector) (level : Bool) (m : Mode) : State :=
  let s := keying m 10
  { s with monIn := level, mon := { s.mon with det := d } }

/-- A mark that opened at instant 0, its interval in progress begun at 0. -/
def someMark : OpenMark where
  start := ⟨0, 9677, 10⟩
  widths := [1000000]
  since := 0
  stale := false

theorem witness_MarksAreHeardAndClassified :
    (let s := heard .idle false .timeCode;
      s.por = false ∧ s.params.monitorEnable = true ∧ s.monIn = false ∧ s.mon.det = .idle ∧
      s.tb.edgeMade = true) ∧
    State.reset.tb.edgeMade = false ∧
    (∀ b, (heard (.mark someMark) b .timeCode).mon.det = .mark someMark ∧
      (heard (.mark someMark) b .timeCode).monIn = b) ∧
    ((heard .stuck true .timeCode).mon.det = .stuck ∧ (heard .stuck true .timeCode).monIn = true) ∧
    ({ State.reset with params := { Params.reset with monitorEnable := false } }).params.monitorEnable =
      false ∧
    (({ someMark with stale := true }).stale = true ∧
      (heard (.mark someMark) false .carrierOnly).key.mode = .carrierOnly) := by decide

/-- A mark opened at the instant of the edge that is due, before its SECOND_EDGE. -/
def openedAtEdge : State :=
  let s := heard (.mark { someMark with start := ⟨10000000, 9677, 10⟩ }) true .timeCode
  { s with now := 10000000, mon := { s.mon with lastDelay := 999, delayAt := some 10000000 } }

theorem witness_MarksAreHeard_edge :
    (openedAtEdge.por = false ∧ openedAtEdge.tb.stepWaiting = false) ∧
    (openedAtEdge.mon.det = .mark { someMark with start := ⟨10000000, 9677, 10⟩ }) ∧
    (heard .stuck true .timeCode).mon.det = .stuck ∧
    ((heard (.mark someMark) true .offAir).key.mode = .offAir) := by decide

/-- R171: an edge at the very instant at which the mark opened is the latest at or before it; an earlier mark
keeps its delay. -/
theorem test_delay_at_the_edge :
    ([openedAtEdge, { openedAtEdge with mon := { openedAtEdge.mon with delayAt := some 9999999 } }].map fun s =>
      match exec .secondEdge s with
      | .next t => (t.mon.lastDelay, match t.mon.det with
          | .mark m => m.start.sec
          | _ => 0)
      | _ => (1, 0)) = [(0, 11), (999, 11)] := by decide

/-- R169 at the edges of its widths: 30 ms to either side is the symbol, one cycle more is none. -/
theorem test_classify_edges :
    [[700000], [1300000], [699999], [1300001], [1700000], [2300000], [3700000], [4300000], [4300001],
      [700000, 1300000, 1000000], [1000000, 1300001, 1000000], [1000000, 1000000]].map classify =
    [.zero, .zero, .invalid, .invalid, .one, .one, .half, .half, .invalid, .minute, .invalid,
      .invalid] := by decide

/-- The frame timer runs, with `bad` bad frames in a row. -/
def timing (bad : Nat) (lost : Bool) : State :=
  let s := keying .timeCode 10
  { s with mon := { s.mon with timer := some 620000000, bad := bad, frameLost := lost } }

theorem witness_FrameTimeoutIsABadFrame :
    ((timing 1 false).por = false ∧ (timing 1 false).mon.timer = some 620000000 ∧
      (timing 1 false).mon.frameLost = false ∧ (timing 1 false).mon.bad + 1 < (timing 1 false).params.lofSet) ∧
    (timing 2 false).params.lofSet ≤ (timing 2 false).mon.bad + 1 ∧
    (timing 0 true).mon.frameLost = true ∧
    (taken State.reset (.injectMonitorError .a 1) = true ∧ State.reset.key.mode ≠ .timeCode) ∧
    (taken (keying .timeCode 10) (.injectMonitorError .a 1) = true ∧
      (keying .timeCode 10).params.monitorEnable = true) := by decide

/-- The frame of the record for minute 0 of day 9677, as heard without error. -/
def heardFrame : Collection where
  start := ⟨10, 9677, 0⟩
  syms := (recordAt 10 (9677 * 1440)).syms
  excess := 0

/-- The frame stands in the sent history. -/
def judging : State :=
  let s := inFrame 10 10
  { s with key := { s.key with history := s.key.current.toList } }

/-- A monitor in IN_FRAME with `n` symbols. -/
def collecting (n : Nat) : Monitor :=
  { Monitor.reset with coll := some {
      start := ⟨0, 9677, 0⟩, syms := List.replicate n .zero, excess := 255 } }

theorem witness_FrameIsJudgedAgainstItsRecord :
    frameFault { heardFrame with syms := [] } = some .length ∧
    (frameFault heardFrame = none ∧ (keying .timeCode 10).key.recordAt heardFrame.start.at_ = none) ∧
    ((judging.key.recordAt heardFrame.start.at_).map (·.record.syms) = some heardFrame.syms ∧
      judging.mon.inject = false ∧ judging.mon.frameLost = false) ∧
    ({ judging.mon with inject := true }).inject = true ∧
    (judging.params.lofClear ≤ 1 + 1 ∧ 0 + 1 < judging.params.lofClear) ∧
    (let s := heard (.mark someMark) false .timeCode;
      s.por = false ∧ s.monIn = false ∧ s.key.mode = .timeCode ∧ s.mon.det = .mark someMark ∧
      someMark.stale = false ∧ s.mon.coll = none ∧ classify someMark.widths = .zero ∧
      classify [1000000, 1000000, 1000000] = .minute) ∧
    ((collecting 61).coll.map (·.syms.length) = some 61 ∧
      (collecting 62).coll.map (fun c => (c.syms.length, c.excess)) = some (62, 255)) := by decide

/-- `judging` with `bad` bad frames in a row and a good run of 1. -/
def running (bad : Nat) (lost : Bool) : State :=
  { judging with mon := { judging.mon with bad := bad, good := 1, frameLost := lost } }

theorem witness_FrameIsJudged_runs :
    ((running 1 false).mon.frameLost = false ∧
      (running 1 false).mon.bad + 1 < (running 1 false).params.lofSet) ∧
    ((running 2 false).mon.frameLost = false ∧
      (running 2 false).params.lofSet ≤ (running 2 false).mon.bad + 1) ∧
    (running 0 true).mon.frameLost = true := by decide

/-- R178: the runs after a frame that fails a check, one with no record and one that differs. -/
theorem test_runs_after_a_bad_frame :
    (∀ c ∈ [{ heardFrame with syms := [] }, { heardFrame with start := ⟨10, 0, 0⟩ }],
      ([running 1 false, running 2 false, running 0 true].map fun s =>
        let t := ({ s with key := { s.key with history := [] } }).judge c
        (t.mon.frameLost, t.mon.bad, t.mon.good, t.cond.live[Counter.monSymbolErrors.id])) =
      [(false, 2, 1, 0), (true, 0, 0, 0), (true, 0, 0, 0)]) ∧
    ([running 1 false, running 2 false, running 0 true].map fun s =>
      let t := ({ s with mon := { s.mon with inject := true } }).judge heardFrame
      (t.mon.frameLost, t.mon.bad, t.mon.good, t.cond.live[Counter.monSymbolErrors.id])) =
      [(false, 2, 1, 1), (true, 0, 0, 1), (true, 0, 0, 1)] := by decide

/-- R172: a 0 is added as the 62nd symbol, and beyond that only counted, up to 255. -/
theorem test_collection_fills :
    ([61, 62].map fun n =>
      match exec .markQuietClose { heard (.mark someMark) false .timeCode with
          mon := { collecting n with det := .mark someMark } } with
      | .next t => t.mon.coll.map fun c => (c.syms.length, c.excess)
      | _ => none) = [some (62, 255), some (62, 255)] := by decide

theorem witness_FrameIsJudged_longClose :
    (∀ b, let s := heard (.mark someMark) b .timeCode;
      s.por = false ∧ s.key.mode = .timeCode ∧ s.mon.det = .mark someMark ∧ someMark.stale = false) ∧
    (∀ a ∈ [AnalyzerState.hunting, .checking, .inSync],
      let s := heard (.mark someMark) false .testPattern;
      ({ s with mon := { s.mon with an := a } }).mon.an = a) := by decide

/-- R168, R172: a long close adds INVALID to the collection, as the 62nd symbol or to the excess. -/
theorem test_long_close_fills :
    ([61, 62].map fun n =>
      match exec .markLongClose { heard (.mark someMark) true .timeCode with
          mon := { collecting n with det := .mark someMark } } with
      | .next t => (t.mon.det, t.mon.coll.map fun c => (c.syms.getLast?, c.syms.length, c.excess))
      | _ => (.idle, none)) =
    [(.stuck, some (some .invalid, 62, 255)), (.stuck, some (some .zero, 62, 255))] := by decide

/-- R174: each check in its order, on the frame with one symbol changed, or cut to 58. -/
theorem test_frame_checks :
    ((frameFault { heardFrame with syms := (heardFrame.syms.set 5 .invalid).take 58 }) ::
      ([(5, Symbol.invalid), (30, .one), (11, .one), (11, .zero), (1, .one), (1, .zero), (59, .one)].map fun x =>
      frameFault { heardFrame with syms := heardFrame.syms.set x.1 x.2 })) =
    [some .length, some .invalidSymbol, some .marker, some .parity, none, some .crc, none, none] := by decide

theorem witness_NoticeCycleIsReassembled :
    (List.replicate 32 (0x7E : Octet)).length ≤ 32 ∧
    (∀ o ∈ List.replicate 32 (0x7E : Octet), 0x20 ≤ o.toNat ∧ o.toNat ≤ 0x7E) ∧
    Monitor.reset.collecting = false := by decide

/-- The analyzer in state `a` with `miss` misses, its generator at the seed. -/
def analyzing (a : AnalyzerState) (miss : Nat) : State :=
  { State.reset with mon := { Monitor.reset with an := a, miss := miss } }

theorem witness_AnalyzerLocksToThePattern :
    State.reset.mon.an = .hunting ∧ State.reset.mon.hunt = [] ∧ (1 : BitVec 15) ≠ 0 ∧
    ((analyzing .checking 0).mon.an = .checking ∧ genSymbol (analyzing .checking 0).mon.gen = .one) ∧
    ((analyzing .inSync 2).mon.an = .inSync ∧ (analyzing .inSync 2).mon.miss < 3 ∧
      3 ≤ (analyzing .inSync 3).mon.miss) ∧
    (let s := heard (.mark someMark) false .testPattern;
      s.por = false ∧ s.monIn = false ∧ s.key.mode = .testPattern ∧ s.mon.det = .mark someMark ∧
      someMark.stale = false) := by decide

/-- R182: the fourth miss in a row is counted and returns the analyzer to HUNTING. -/
theorem test_fourth_miss :
    ([2, 3].map fun n =>
      let t := (analyzing .inSync n).analyze .zero
      (t.mon.an, t.cond.live[Counter.monPatternErrors.id])) = [(.inSync, 1), (.hunting, 1)] := by decide

/-! ## Witnesses: the amplifier bus, the parameters, the bounds -/

/-- A transaction of address `a`, in attempt `n` of three, in its answer window. -/
def inWindow (scan : Bool) (a n : Nat) : Txn where
  scan := scan
  address := a
  register := 0
  value := none
  retries := 2
  attempts := n
  phase := .window 20000
  rangeChanged := false

/-- The bus carries the transaction `t`. -/
def carrying (t : Txn) : State := { State.reset with bus := { Bus.reset with txn := some t } }

/-- A relay entry that waits for its answer. -/
def relayed (underWay : Bool) : RelayEntry where
  link := .b
  tag := 5
  address := 31
  register := 15
  value := none
  underWay := underWay
  wanted := true

theorem witness_ScanReadSetsItsRecord :
    (State.reset.bus.txn.map (·.phase) = some .sending) ∧
    (∀ a ∈ [1, 8], let s := carrying (inWindow true a 1);
      s.por = false ∧ s.bus.txn = some (inWindow true a 1) ∧
      (inWindow true a 1).phase = .window 20000 ∧ (inWindow true a 1).scan = true ∧
      (inWindow true a 1).rangeChanged = false ∧ 1 ≤ a ∧ a ≤ 31 ∧ s.bus.first ≤ a ∧ a ≤ s.bus.last ∧
      s.now + 20000 ≤ 20000 ∧ 20000 < s.now + 20001 ∧ s.bus.queue = []) ∧
    ((inWindow true 1 2).attempts ≤ (inWindow true 1 2).retries ∧
      (inWindow true 1 3).retries < (inWindow true 1 3).attempts) := by decide

/-- R151: an answer at the end of the window is taken, and one a cycle later is not. -/
theorem test_late_answer :
    ([20000, 20001].map fun dt =>
      match exec (.moduleAnswer 0x1000 dt) (carrying (inWindow true 1 1)) with
      | .next t => (t.bus.record 1).st
      | _ => .fault) = [.ok, .unknown] := by decide

/-- A scan read of `a` in its last window, with relay entries waiting. -/
def scanning (a : Nat) (xs : List RelayEntry) : State :=
  { State.reset with bus := { Bus.reset with txn := some (inWindow true a 3), pos := a, queue := xs } }

theorem witness_ScanReadSetsItsRecord_ends :
    (∀ xs ∈ [[], [relayed false, relayed false]], ∀ a ∈ [1, 8], let s := scanning a xs;
      s.por = false ∧ s.bus.txn = some (inWindow true a 3) ∧ (inWindow true a 3).scan = true ∧
      (inWindow true a 3).retries < (inWindow true a 3).attempts ∧ s.bus.first ≤ a ∧ a ≤ s.bus.last ∧
      (s.bus.record a).st ≠ .silent ∧ s.bus.queue = xs ∧ (∀ z ∈ xs, z.underWay = false)) ∧
    ¬((9 : Nat) ≤ (scanning 9 []).bus.last) ∧
    ({ inWindow true 1 3 with rangeChanged := true }).rangeChanged = true := by decide

/-- R153, R155, R157: a scan read of the last address that ends, unanswered or answered, moves the scan to the
first, raises MODULE_CHANGE, and the oldest relay waiting or else the next scan read begins. -/
theorem test_scan_goes_on :
    ([(.answerWindowExpiry, []), (.moduleAnswer 0x1000 5, []), (.answerWindowExpiry, [relayed false]),
        (.moduleAnswer 0x1000 5, [relayed false])].map fun (x : Instr × List RelayEntry) =>
      match exec x.1 (scanning 8 x.2) with
      | .next t => ((t.bus.record 8).st, t.bus.pos, t.cond.viewA.getLsbD 21, t.bus.txn.map (·.address))
      | _ => (.fault, 0, false, none)) =
    [(.silent, 1, true, some 1), (.ok, 1, true, some 1), (.silent, 1, true, some 31),
      (.ok, 1, true, some 31)] := by decide

theorem witness_RelayIsQueuedAndAnswered :
    (taken State.reset (.moduleRead .b 1 0 0) = true ∧ taken State.reset (.moduleRead .b 1 32 0) = true ∧
      taken State.reset (.moduleRead .b 1 1 16) = true) ∧
    (let s := { State.reset with bus := { Bus.reset with queue := List.replicate 4 (relayed false) } };
      taken s (.moduleRead .b 1 31 15) = true ∧ taken s (.moduleWrite .b 1 31 15 7) = true ∧
      4 ≤ s.bus.queue.length) ∧
    (taken State.reset (.moduleRead .b 1 31 15) = true ∧ State.reset.bus.queue.length < 4 ∧
      State.reset.bus.txn.isSome = true) ∧
    taken State.reset (.moduleWrite .b 1 0 0 7) = true ∧
    (let s := { State.reset with bus := { Bus.reset with txn := none } };
      taken s (.moduleWrite .b 1 31 15 7) = true ∧ s.bus.queue = [] ∧ s.bus.txn = none) ∧
    (let s := { carrying (inWindow false 31 1) with bus := { Bus.reset with
        txn := some (inWindow false 31 1), queue := [relayed true, relayed false] } };
      s.por = false ∧ s.bus.txn = some (inWindow false 31 1) ∧ s.now + 20000 ≤ 20000 ∧
      s.bus.queue = relayed true :: [relayed false] ∧ (relayed true).underWay = true ∧
      (∀ z ∈ [relayed false], z.underWay = false) ∧ (inWindow false 31 1).value = (relayed true).value ∧
      (relayed true).wanted = true) := by decide

theorem witness_RelayIsQueued_accepted :
    ∀ c ∈ [Instr.moduleRead .b 1 31 15, .moduleWrite .b 1 31 15 7],
      (taken State.reset c = true ∧ State.reset.bus.txn.isSome = true ∧
        State.reset.bus.queue.length < 4) ∧
      (let s := { State.reset with bus := { Bus.reset with txn := none } };
        taken s c = true ∧ s.bus.txn = none ∧ s.bus.queue = [] ∧ s.bus.queue.length < 4) := by decide

/-- R153, R160: an accepted write waits behind the scan read in progress, and begins on an idle bus. -/
theorem test_relay_begins :
    ([Bus.reset.txn, none].map fun x =>
      let s := { State.reset with bus := { Bus.reset with txn := x } }
      let c := Instr.moduleWrite .b 1 31 15 7
      match exec c (waits s c) with
      | .next t => (t.bus.txn.map fun y => (y.address, y.value), t.bus.queue.map (·.underWay))
      | _ => (none, [])) =
    [(some (1, none), [false]), (some (31, some 7), [true])] := by decide

/-- A relayed read of register 0 of address `a` under way for link B, with `rest` behind it. -/
def relaying (a n : Nat) (wanted : Bool) (rest : List RelayEntry) : State :=
  { State.reset with
    bus := { Bus.reset with
      txn := some (inWindow false a n)
      queue := { relayed true with address := a, register := 0, wanted := wanted } :: rest }
    linkB := { LinkState.reset with outstanding := [⟨⟨5, 0x80, [8, 0]⟩, .inRelay, true⟩] } }

theorem witness_RelayIsQueued_ends :
    (∀ a ∈ [1, 8], (relaying a 1 true []).bus.first ≤ a ∧ a ≤ (relaying a 1 true []).bus.last) ∧
    ¬((9 : Nat) ≤ (relaying 9 1 true []).bus.last) ∧
    ((relaying 8 3 true []).por = false ∧ (inWindow false 8 3).retries < (inWindow false 8 3).attempts ∧
      (relaying 8 3 true []).bus.queue.map (·.underWay) = [true] ∧
      (relaying 8 3 false [relayed false]).bus.queue.map (fun y => (y.underWay, y.wanted)) =
        [(true, false), (false, true)]) ∧
    ((relaying 8 1 true []).linkB.outstanding.map fun e => (e.st, e.req.tag, e.req.code)) =
      [(.inRelay, 5, 0x80)] := by decide

/-- R161, R162: the answer to a relayed read of register 0 sets the record, and is given to link B and its
entry, but to nothing if it is no longer wanted. -/
theorem test_relay_ends :
    ([true, false].map fun wanted =>
      match exec (.moduleAnswer 0x1000 5) (relaying 8 1 wanted []) with
      | .next t => ((t.bus.record 8).st, t.linkB.output.map (·.data), t.linkB.outstanding.map (·.st))
      | _ => (.fault, [], [])) =
    [(.ok, [[0x10, 0, 1]], [.answered]), (.ok, [], [.inRelay])] := by decide

/-- R153: after a relay the next relay begins, or else the next scan read. -/
theorem test_after_relay :
    ([[], [relayed false]].map fun rest =>
      match exec (.moduleAnswer 0x1000 5) (relaying 8 1 true rest) with
      | .next t => t.bus.txn.map fun y => (y.scan, y.address)
      | _ => none) = [some (true, 1), some (false, 31)] := by decide

/-- R161: a relayed read that ends NO_ANSWER is answered with its attempts and leaves the record. -/
theorem test_relay_no_answer :
    (match exec .answerWindowExpiry (relaying 8 3 true []) with
      | .next t => ((t.bus.record 8).st, t.linkB.output.map fun r => (r.result, r.data))
      | _ => (.fault, [])) = (.unknown, [(.noAnswer, [3])]) := by decide

theorem witness_SetScanChangesTheRange :
    (taken State.reset (.setScan .a 1 0 8 0) = true ∧ taken State.reset (.setScan .a 1 9 8 0) = true ∧
      taken State.reset (.setScan .a 1 1 32 0) = true) ∧
    (taken State.reset (.setScan .a 1 1 8 32) = true ∧ State.reset.bus.first = 1 ∧
      State.reset.bus.last = 8 ∧ 31 < (32 : Octet).toNat) ∧
    taken State.reset (.setScan .a 1 31 31 31) = true ∧
    (let s := { State.reset with bus := { Bus.reset with
        table := Bus.reset.table.set 0 { st := .ok, status := none, passes := 0 } } };
      taken s (.setScan .a 1 2 31 0) = true ∧ (s.bus.record 1).st ≠ .unknown ∧
      s.bus.first ≤ 1 ∧ 1 ≤ s.bus.last) := by decide

theorem witness_SetScan_readInProgress :
    taken State.reset (.setScan .a 1 2 31 0) = true ∧ State.reset.bus.txn.map (·.scan) = some true := by decide

/-- R159: the scan read in progress learns that the range changed under it; a relay does not. -/
theorem test_set_scan_marks_the_read :
    ([State.reset, relaying 8 1 true []].map fun s =>
      match exec (.setScan .a 1 2 31 0) (waits s (.setScan .a 1 2 31 0)) with
      | .next t => t.bus.txn.map fun x => (x.scan, x.rangeChanged)
      | _ => none) = [some (true, true), some (false, false)] := by decide

/-- The monitor and the scan are off and the bus is idle. -/
def switchedOff : State :=
  { State.reset with
    params := { Params.reset with monitorEnable := false, scanEnable := false }
    bus := { Bus.reset with txn := none } }

theorem witness_ParametersAreClampedAndRead :
    (taken State.reset (.setParam .a 1 17 0) = true ∧ 16 < (17 : Octet).toNat) ∧
    (taken State.reset (.setParam .a 1 0 5001) = true ∧ paramTable[(0 : Octet).toNat]? = some ⟨10, 5000, 200⟩ ∧
      5000 < (5001 : BitVec 16).toNat ∧ taken State.reset (.setParam .a 1 0 9) = true ∧
      (9 : BitVec 16).toNat < 10) ∧
    (taken State.reset (.setParam .a 1 16 0) = true ∧ paramTable[(16 : Octet).toNat]? = some ⟨0, 1, 1⟩) ∧
    (taken State.reset (.readParam .a 1 17) = true ∧ taken State.reset (.readParam .a 1 16) = true) ∧
    (taken State.reset (.setParam .a 1 15 0) = true ∧ State.reset.params.monitorEnable = true ∧
      taken switchedOff (.setParam .a 1 15 1) = true ∧ switchedOff.params.monitorEnable = false ∧
      taken switchedOff (.setParam .a 1 16 1) = true ∧ switchedOff.params.scanEnable = false ∧
      switchedOff.bus.txn = none ∧ switchedOff.bus.queue = [] ∧ State.reset.bus.txn.isSome = true ∧
      taken State.reset (.setParam .a 1 0 200) = true ∧ State.reset.params.get 0 = 200) := by
  decide

/-- R156: SCAN_ENABLE turned on over an idle bus begins a scan read of the scan position. -/
theorem test_scan_turned_on :
    (match exec (.setParam .a 1 16 1) (waits switchedOff (.setParam .a 1 16 1)) with
      | .next t => t.bus.txn.map fun x => (x.scan, x.address)
      | _ => none) = some (true, 1) := by decide

/-- A frame has been judged and an entry has retired. -/
def framed : State :=
  { State.reset with
    mon := { Monitor.reset with lastFrame := some {
      reason := some .timeout, syms := [], excess := 0, start := ⟨0, 0, 0⟩, matched := none,
      differing := 0, injected := false } }
    sched := { Schedule.reset with retired := [(zoneEntry 1 100 true).retire .applied none 0 0] } }

theorem witness_ReadingChangesNothing :
    (taken State.reset (.readTime .a 1) = true ∧ taken State.reset (.readReferences .a 1) = true ∧
      taken State.reset (.readSynth .a 1) = true) ∧
    (taken State.reset (.readMonitor .a 1 1) = true ∧ taken State.reset (.readMonitor .a 1 2) = true) ∧
    (taken State.reset (.readNotice .a 1 2) = true ∧ taken State.reset (.readNotice .a 1 3) = true) ∧
    (taken State.reset (.readModules .a 1 31) = true ∧ taken State.reset (.readModules .a 1 32) = true) ∧
    (taken judging (.readKeyer .a 1 1) = true ∧ judging.key.history.length = 1 ∧
      taken judging (.readKeyer .a 1 2) = true ∧ taken judging (.readKeyer .a 1 5) = true) ∧
    (taken (scheduled 0 [zoneEntry 1 100 false]) (.readSchedule .a 1 1) = true ∧
      taken State.reset (.readSchedule .a 1 16) = true ∧ taken State.reset (.readSchedule .a 1 17) = true) ∧
    (taken State.reset (.readRetired .a 1 0) = true ∧ taken State.reset (.readRetired .a 1 8) = true ∧
      taken State.reset (.readRetired .a 1 9) = true) ∧
    ((taken State.reset (.readMonitor .a 1 0) = true ∧ State.reset.mon.lastFrame = none) ∧
      (taken framed (.readMonitor .a 1 1) = true ∧ framed.mon.lastFrame.isSome = true) ∧
      (taken framed (.readRetired .a 1 1) = true ∧ framed.sched.retired.length = 1) ∧
      taken State.reset (.readNotice .a 1 0) = true ∧ taken State.reset (.readNotice .a 1 1) = true ∧
      taken State.reset (.readModules .a 1 0) = true ∧ taken judging (.readKeyer .a 1 0) = true ∧
      taken State.reset (.readSchedule .a 1 0) = true) := by decide

/-- R67: a refused reading of the schedule or of the retired list carries the version too. -/
theorem test_refused_reading_carries_version :
    ([Instr.readSchedule .a 1 17, .readSchedule .a 1 1, .readRetired .a 1 9, .readRetired .a 1 1].map fun c =>
      match exec c (waits { State.reset with sched := { Schedule.reset with version := 258 } } c) with
      | .next t => t.linkA.output.map fun r => (r.result, r.data)
      | _ => []) =
    [[(.badArgument, [1, 2])], [(.notFound, [1, 2])], [(.badArgument, [1, 2])], [(.notFound, [1, 2])]] := by
  decide

theorem witness_BoundsAreKept : (timed 10).Bounded where
  linkA := by unfold LinkState.Bounded; decide
  linkB := by unfold LinkState.Bounded; decide
  entries := by decide
  retired := by decide
  text0 := by decide
  text1 := by decide
  history := by decide
  queue := by decide
  collection := nofun
  octets := by decide
  hunt := by decide
  rxText := by decide
  params := by
    intro id r h
    have h17 : id < 17 := (List.getElem?_eq_some_iff.mp h).1
    interval_cases id <;> cases h <;> decide

theorem witness_BoundsAreKept_bus : (relaying 8 3 true [relayed false]).BusOrdered where
  idle := by decide
  scan := by intro x h; cases h; decide
  relay := by intro x h; cases h; exact fun _ => ⟨_, _, rfl, by decide⟩
  attempts := by intro x h; cases h; decide
  range := by decide
  queued := by decide

theorem witness_BoundsAreKept_selection : (timed 10).Selected where
  manual := by decide
  auto := by intro _ p h; cases h; decide
  enabled := by intro p h; cases h; decide

theorem witness_BoundsAreKept_frames : judging.FramesInOrder where
  history := by decide
  current := by intro f h; cases h; decide
  past := by decide

end Sys2Proof.Tests
end

/-! STEP_TIME (R38): what the timebase answers in each case of the request's checks, and the keyer's check
for TIME_CODE, which reads the time state and no pending step. -/

namespace Sys2Proof.Machine

theorem Keyer.nearTimeCode_iff (k : Keyer) :
    k.nearTimeCode = true ↔ k.mode = .timeCode ∨ k.pendingMode = some .timeCode := by
  simp [Keyer.nearTimeCode]

theorem actStepTime_onAir {day : BitVec 16} {second : BitVec 24} {s : State}
    (h : s.key.nearTimeCode = true) : actStepTime day second s = .plain .onAir s :=
  if_pos h

theorem actStepTime_badArgument {day : BitVec 16} {second : BitVec 24} {s : State}
    (h : ¬s.key.nearTimeCode = true) (hout : 36524 < day.toNat ∨ 86399 < second.toNat) :
    actStepTime day second s = .plain .badArgument s := by
  rw [actStepTime, if_neg h, if_pos (by simpa using hout)]

theorem actStepTime_ok {day : BitVec 16} {second : BitVec 24} {s : State}
    (h : ¬s.key.nearTimeCode = true) (hday : day.toNat ≤ 36524) (hsec : second.toNat ≤ 86399) :
    actStepTime day second s =
      .plain .ok { s with tb := { s.tb with pendingStep := some (day.toNat, second.toNat) } } := by
  have hin : ¬(36524 < day.toNat || 86399 < second.toNat) = true := by
    simpa using And.intro hday hsec
  rw [actStepTime, if_neg h, if_neg hin]

/-- STEP_TIME taken up answers what the timebase makes of it on the executor's turn. -/
theorem State.answers_stepTime {l : Link} {tag : Tag} {day : BitVec 16} {second : BitVec 24} {s : State}
    {r : Result} {block : State → State} (ht : s.takesUp (.stepTime l tag day second) = true)
    (ha : actStepTime day second { s with exe := s.exe.serve l } =
      .plain r (block { s with exe := s.exe.serve l })) :
    s.Answers (.stepTime l tag day second) r [] block :=
  State.answers_of ht rfl (fun _ => rfl) ha

/-- The check for TIME_CODE asks for time SET, on air or not (R115). -/
theorem State.onAirChecks_timeCode_of_unset {s : State} (h : s.tb.timeSet = false) :
    s.onAirChecks .timeCode = false := by
  simp [State.onAirChecks, h]

end Sys2Proof.Machine

namespace Sys2Proof

open Sys2Proof.Machine

/-- Settles O22: one answer of the timebase for each outcome of R38's two checks, in their order. -/
theorem stepTimeIsHeldForTheNextEdge : Obligations.StepTimeIsHeldForTheNextEdge := by
  intro l tag day second s ht onAir
  have near : s.key.nearTimeCode = true ↔ onAir := s.key.nearTimeCode_iff
  refine ⟨fun hair => ?onAir, fun hair hout => ?badArgument, fun hair hday hsec => ?ok,
    fun _ => State.onAirChecks_timeCode_of_unset⟩
  case onAir => exact State.answers_stepTime ht (actStepTime_onAir (near.mpr hair))
  case badArgument => exact State.answers_stepTime ht (actStepTime_badArgument (mt near.mp hair) hout)
  case ok => exact State.answers_stepTime ht (actStepTime_ok (mt near.mp hair) hday hsec)

end Sys2Proof

/-! The change schedule's requests (R68..R73, R86, R87): the number an entry takes, its place in the table,
what the schedule makes of each request, one equation for each answer. -/

namespace Sys2Proof.Machine

/-! ## A change of the schedule (R67) -/

/-- SCHEDULE_CHANGE is item 18 of both views. -/
theorem State.scheduleChanged_views (s : State) :
    s.scheduleChanged.cond.viewA.getLsbD 18 = true ∧ s.scheduleChanged.cond.viewB.getLsbD 18 = true := by
  simp [State.scheduleChanged, State.raise, Conditions.addToViews, Event.item]

/-! ## The number of a new entry (R66) -/

/-- From its second element on, the run of the entry numbers goes round 1..255. -/
theorem nextNumber_iterate_succ (n j : Nat) :
    nextNumber^[j + 1] n = ((if 255 ≤ n then 0 else n) + j) % 255 + 1 := by
  induction j with
  | zero => simp only [zero_add, Function.iterate_one, nextNumber]; split <;> omega
  | succ j ih =>
    rw [Function.iterate_succ_apply', ih, nextNumber]
    generalize (if 255 ≤ n then 0 else n) = m
    split <;> omega

/-- Fewer than 255 further elements never come back to an element of the run. -/
theorem nextNumber_iterate_ne {n i d : Nat} (hd : d < 254) :
    nextNumber^[i] n ≠ nextNumber^[i + d + 1] n := by
  rw [nextNumber_iterate_succ]
  cases i with
  | zero => simp only [Function.iterate_zero, id_eq]; split <;> omega
  | succ i => rw [nextNumber_iterate_succ]; omega

theorem nextNumber_iterate_injOn (n : Nat) : Set.InjOn (fun j => nextNumber^[j] n) (Finset.range 17) := by
  intro i hi j hj hij
  simp only [Finset.coe_range, Set.mem_Iio] at hi hj
  rcases lt_trichotomy i j with hlt | heq | hgt
  · obtain ⟨d, rfl⟩ := Nat.exists_eq_add_of_lt hlt
    exact absurd hij (nextNumber_iterate_ne (by omega))
  · exact heq
  · obtain ⟨d, rfl⟩ := Nat.exists_eq_add_of_lt hgt
    exact absurd hij.symm (nextNumber_iterate_ne (by omega))

/-- The search passes over held numbers only, and stops early only at one that is not held. -/
theorem freeNumber_search (held : List Nat) (tries n : Nat) :
    ∃ k ≤ tries, freeNumber held tries n = nextNumber^[k] n ∧ (∀ j < k, nextNumber^[j] n ∈ held) ∧
      (k < tries → freeNumber held tries n ∉ held) := by
  induction tries generalizing n with
  | zero => exact ⟨0, le_rfl, rfl, by simp, by simp⟩
  | succ tries ih =>
    by_cases hn : n ∈ held
    · obtain ⟨k, hk, heq, hheld, hfree⟩ := ih (nextNumber n)
      have hstep : freeNumber held (tries + 1) n = freeNumber held tries (nextNumber n) :=
        if_pos (List.contains_iff_mem.mpr hn)
      refine ⟨k + 1, by omega, hstep.trans heq, fun j hj => ?_, fun hlt => hstep ▸ hfree (by omega)⟩
      cases j with
      | zero => exact hn
      | succ j => exact hheld j (by omega)
    · have hstop : freeNumber held (tries + 1) n = n := if_neg (mt List.contains_iff_mem.mp hn)
      exact ⟨0, by omega, hstop, by simp, fun _ => by rwa [hstop]⟩

/-- Fewer held numbers than tries: some number of the run is free, so the search finds it. -/
theorem freeNumber_free {held : List Nat} (n : Nat) (hlen : held.length < 17) :
    freeNumber held 17 n ∉ held ∧ ∃ k < 17, freeNumber held 17 n = nextNumber^[k] n ∧
      ∀ j < k, nextNumber^[j] n ∈ held := by
  obtain ⟨k, hk, heq, hheld, hfree⟩ := freeNumber_search held 17 n
  have hlt : k < 17 := by
    by_contra hge
    have hsub : ∀ j ∈ Finset.range 17, nextNumber^[j] n ∈ held.toFinset := fun j hj =>
      List.mem_toFinset.mpr (hheld j (by have := Finset.mem_range.mp hj; omega))
    have hcard := Finset.card_le_card_of_injOn _ hsub (nextNumber_iterate_injOn n)
    have := held.toFinset_card_le
    rw [Finset.card_range] at hcard
    omega
  exact ⟨hfree hlt, k, hlt, heq, hheld⟩

/-- A table that is not full leaves a number free within the run. -/
theorem Schedule.freeNumber_entries {t : Schedule} (hlen : t.entries.length < 16) :
    (∃ k < 17, freeNumber (t.entries.map (·.number)) 17 t.nextNum = nextNumber^[k] t.nextNum ∧
      ∀ j < k, ∃ z ∈ t.entries, z.number = nextNumber^[j] t.nextNum) ∧
    ∀ z ∈ t.entries, z.number ≠ freeNumber (t.entries.map (·.number)) 17 t.nextNum := by
  obtain ⟨hfree, k, hk, heq, hheld⟩ :=
    freeNumber_free (held := t.entries.map (·.number)) t.nextNum (by simp; omega)
  exact ⟨⟨k, hk, heq, fun j hj => List.mem_map.mp (hheld j hj)⟩,
    fun z hz heq => hfree (heq ▸ List.mem_map_of_mem hz)⟩

/-! ## The place of a new entry (R66) -/

theorem insertEntry_split (x : Entry) (ys : List Entry) :
    ∃ before rest, ys = before ++ rest ∧ insertEntry x ys = before ++ x :: rest ∧
      (∀ z ∈ before, x.before z = false) ∧ ∀ z, rest.head? = some z → x.before z = true := by
  induction ys with
  | nil => exact ⟨[], [], rfl, rfl, by simp, by simp⟩
  | cons y ys ih =>
    by_cases hy : x.before y = true
    · exact ⟨[], y :: ys, rfl, if_pos hy, by simp, by simpa using hy⟩
    · obtain ⟨before, rest, hys, hins, hbefore, hrest⟩ := ih
      refine ⟨y :: before, rest, by rw [hys, List.cons_append], ?_, ?_, hrest⟩
      · rw [insertEntry, if_neg hy, hins, List.cons_append]
      · exact List.forall_mem_cons.mpr ⟨by simpa using hy, hbefore⟩

/-! ## The arguments of a posting (R68, R69) -/

theorem kindOf_eq_none {o : Octet} (h : ¬o.toNat ≤ 2) : kindOf o = none := by
  unfold kindOf
  split
  · omega
  · omega
  · omega
  · rfl

theorem kindOf_of_le {o : Octet} (h : o.toNat ≤ 2) :
    ∃ kd, kindOf o = some kd ∧ (kd = .zoneChange ↔ o = 2) ∧ (kd = .leapInsert ↔ o = 0) := by
  have hcases : o = 0 ∨ o = 1 ∨ o = 2 := by bv_omega
  rcases hcases with rfl | rfl | rfl
  · exact ⟨.leapInsert, by decide⟩
  · exact ⟨.leapDelete, by decide⟩
  · exact ⟨.zoneChange, by decide⟩

theorem normalLead_toNat (lead : BitVec 16) : normalLead lead.toNat =
    if lead = 0 then 60 else if 1440 < lead.toNat then 1440 else lead.toNat := by
  have hzero : lead.toNat = 0 ↔ lead = 0 := by bv_omega
  simp only [normalLead, hzero]
  split
  · rfl
  · split <;> omega

/-- The linear minute of E: the minute named for a zone change, the end of the day named for a leap. -/
theorem linearMinute_effective (kd : ChangeKind) (day minute : Nat) :
    linearMinute (effective kd day minute).1 (effective kd day minute).2 =
      if kd = .zoneChange then day * 1440 + minute else (day + 1) * 1440 := by
  unfold effective
  split <;> simp [linearMinute]

theorem postingValid_iff (kd : ChangeKind) (day minute zone now : Nat) :
    postingValid kd day minute zone now = true ↔ day ≤ 36524 ∧ minute ≤ 1439 ∧
      now < (if kd = .zoneChange then day * 1440 + minute else (day + 1) * 1440) ∧
      if kd = .zoneChange then zone ≤ 3 else isLastOfMonth day = true ∧ day ≠ 36524 := by
  simp only [postingValid, linearMinute_effective]
  split <;> simp <;> tauto

/-- The entries that clash with `x` (R71), by its kind. -/
theorem Entry.conflicts_iff (x y : Entry) : x.conflicts y = true ↔
    if x.kind = .zoneChange
    then y.kind = .zoneChange ∧ (y.e = x.e ∨ (x.e < y.e + x.lead ∧ y.e < x.e + y.lead))
    else y.kind ≠ .zoneChange ∧ y.e = x.e := by
  unfold Entry.conflicts Entry.isLeap
  by_cases hx : x.kind = .zoneChange <;> simp [hx]

/-! ## What the schedule makes of a posting (R70..R72) -/

/-- The data of an acceptance, `g` being the first frame minute that can still be affected (R72). -/
def Entry.postedData (x : Entry) (g : Nat) : List Octet :=
  octetsBE 1 x.number ++ octetsBE 2 x.lead ++ octetsBE 2 (min x.lead (x.e - g)) ++ encFlag (x.e - g < x.lead)

/-- The checks of R70 and R71 on an entry whose arguments are valid, and its acceptance. -/
def State.post (s : State) (x : Entry) : Acted :=
  if x.e ≤ s.firstFrame then .plain .tooLate s
  else match s.sched.entries.find? x.conflicts with
    | some y => .answered .conflict (octetsBE 1 y.number) s
    | none =>
      if 16 ≤ s.sched.entries.length then .plain .full s
      else .answered .ok (x.postedData s.firstFrame) (s.insertChange x)

section
variable {s : State} {x : Entry}

theorem State.post_tooLate (h : x.e ≤ s.firstFrame) : s.post x = .plain .tooLate s := if_pos h

theorem State.post_conflict {y : Entry} {before rest : List Entry} (h : s.firstFrame < x.e)
    (hs : s.sched.entries = before ++ y :: rest) (hy : x.conflicts y = true)
    (hb : ∀ z ∈ before, ¬x.conflicts z = true) :
    s.post x = .answered .conflict (octetsBE 1 y.number) s := by
  have hfind : s.sched.entries.find? x.conflicts = some y :=
    List.find?_eq_some_iff_append.mpr ⟨hy, before, rest, hs, by simpa using hb⟩
  rw [State.post, if_neg (by omega), hfind]

theorem State.post_full (h : s.firstFrame < x.e) (hc : ∀ y ∈ s.sched.entries, ¬x.conflicts y = true)
    (hl : 16 ≤ s.sched.entries.length) : s.post x = .plain .full s := by
  rw [State.post, if_neg (by omega), List.find?_eq_none.mpr hc]
  exact if_pos hl

theorem State.post_ok (h : s.firstFrame < x.e) (hc : ∀ y ∈ s.sched.entries, ¬x.conflicts y = true)
    (hl : s.sched.entries.length < 16) :
    s.post x = .answered .ok (x.postedData s.firstFrame) (s.insertChange x) := by
  rw [State.post, if_neg (by omega), List.find?_eq_none.mpr hc]
  exact if_neg (by omega)

end

section
variable {l : Link} {tag : Tag} {kind zone : Octet} {day minute lead : BitVec 16} {s : State}

theorem actPostChange_notReady (h : s.tb.timeSet = false) :
    actPostChange l kind day minute zone lead s = .plain .notReady s := by
  rw [actPostChange, if_pos (by simp [h])]

theorem actPostChange_badKind (h : s.tb.timeSet = true) (hk : kindOf kind = none) :
    actPostChange l kind day minute zone lead s = .plain .badArgument s := by
  rw [actPostChange, if_neg (by simp [h]), hk]

theorem actPostChange_badArgument {kd : ChangeKind} (h : s.tb.timeSet = true) (hk : kindOf kind = some kd)
    (hv : ¬postingValid kd day.toNat minute.toNat zone.toNat s.tb.minute = true) :
    actPostChange l kind day minute zone lead s = .plain .badArgument s := by
  rw [actPostChange, if_neg (by simp [h]), hk]
  exact if_pos (by simpa using hv)

theorem actPostChange_valid {kd : ChangeKind} (h : s.tb.timeSet = true) (hk : kindOf kind = some kd)
    (hv : postingValid kd day.toNat minute.toNat zone.toNat s.tb.minute = true) :
    actPostChange l kind day minute zone lead s =
      s.post (s.newEntry l kd day.toNat minute.toNat zone.toNat (normalLead lead.toNat)) := by
  rw [actPostChange, if_neg (by simp [h]), hk]
  exact if_neg (by simp [hv])

/-- POST_CHANGE taken up answers what the schedule makes of it on the executor's turn. -/
theorem State.answers_postChange {r : Result} {data : List Octet}
    (ht : s.takesUp (.postChange l tag kind day minute zone lead) = true)
    (ha : actPostChange l kind day minute zone lead { s with exe := s.exe.serve l } =
      .answered r data { s with exe := s.exe.serve l }) :
    s.Answers (.postChange l tag kind day minute zone lead) r data id :=
  State.answers_of ht rfl (fun _ => rfl) ha

end

/-! ## What the schedule makes of a withdrawal (R73) -/

section
variable {l : Link} {tag : Tag} {number : Octet} {s : State}

theorem actWithdrawChange_badArgument (h : number = 0) :
    actWithdrawChange l number s = .plain .badArgument s := if_pos h

theorem actWithdrawChange_notFound (h : number ≠ 0)
    (hn : ∀ x ∈ s.sched.entries, x.number ≠ number.toNat) :
    actWithdrawChange l number s = .plain .notFound s := by
  rw [actWithdrawChange, if_neg h, List.find?_eq_none.mpr (by simpa using hn)]

/-- The first entry of the number given decides: it stays while it is ANNOUNCING, and else it leaves. -/
theorem actWithdrawChange_found {x : Entry} {before after : List Entry} (h : number ≠ 0)
    (hs : s.sched.entries = before ++ x :: after) (hx : x.number = number.toNat)
    (hb : ∀ y ∈ before, y.number ≠ number.toNat) :
    actWithdrawChange l number s =
      if x.announcing then .plain .onAir s else .plain .ok (s.withdraw l x) := by
  have hfind : s.sched.entries.find? (fun x => x.number = number.toNat) = some x :=
    List.find?_eq_some_iff_append.mpr ⟨by simpa using hx, before, after, hs, by simpa using hb⟩
  rw [actWithdrawChange, if_neg h, hfind]

/-- The entry withdrawn leaves the table alone, if no other holds its number. -/
theorem State.withdraw_entries {x : Entry} {before after : List Entry}
    (hs : s.sched.entries = before ++ x :: after) (hb : ∀ y ∈ before, y.number ≠ x.number)
    (ha : ∀ y ∈ after, y.number ≠ x.number) :
    (s.withdraw l x).sched.entries = before ++ after := by
  have hfilter : (s.withdraw l x).sched.entries =
      s.sched.entries.filter (fun y => y.number ≠ x.number) := rfl
  rw [hfilter, hs, List.filter_append, List.filter_cons_of_neg (by simp),
    List.filter_eq_self.mpr (by simpa using hb), List.filter_eq_self.mpr (by simpa using ha)]

theorem State.withdraw_retired (s : State) (l : Link) (x : Entry) :
    (s.withdraw l x).sched.retired =
      keepLast 8 (s.sched.retired ++ [x.retire .withdrawn (some l) s.tb.day s.tb.sec]) := rfl

/-- WITHDRAW_CHANGE taken up and refused. -/
theorem State.refuses_withdrawChange {r : Result} (ht : s.takesUp (.withdrawChange l tag number) = true)
    (ha : actWithdrawChange l number { s with exe := s.exe.serve l } =
      .plain r { s with exe := s.exe.serve l }) :
    s.Refuses (.withdrawChange l tag number) r :=
  State.answers_of ht rfl (fun _ => rfl) ha

end

/-! ## The zone table (R86, R87) -/

theorem State.zoneInUse_iff (s : State) (index : Nat) : s.zoneInUse index = true ↔
    ((s.key.mode = .timeCode ∨ s.key.pendingMode = some .timeCode) ∧
      (index = s.sched.zone ∨ s.sched.pendingZone = some index)) ∨
    ∃ x ∈ s.sched.entries, x.announcing = true ∧ x.newZone = some index := by
  simp [State.zoneInUse, Keyer.nearTimeCode_iff]

theorem zoneOffset_eq (v : Int) :
    zoneOffset v = if v < -48 then -48 else if 56 < v then 56 else v := by
  unfold zoneOffset
  split
  · omega
  · split <;> omega

theorem Schedule.offset_fin (t : Schedule) (i : Fin 4) : t.offset i = t.offsets[i] := by
  simp [Schedule.offset]

section
variable {s : State} {i : Fin 4} {q : Int}

/-- Writing the zone table does not look at the executor's turn. -/
theorem State.writeZone_exe (s : State) (x : Executor) (n : Nat) (v : Int) :
    { s with exe := x }.writeZone n v = { s.writeZone n v with exe := x } := by
  unfold State.writeZone
  split <;> rfl

theorem State.writeZone_same (h : s.sched.offsets[i] = q) : s.writeZone i q = s :=
  if_pos ((s.sched.offset_fin i).trans h)

theorem State.writeZone_changed (h : s.sched.offsets[i] ≠ q) :
    s.writeZone i q =
      { s with sched := { s.sched with offsets := s.sched.offsets.set i q } }.scheduleChanged := by
  have hset : s.sched.offsets.setIfInBounds i q = s.sched.offsets.set i q := by
    ext j hj
    rw [Vector.getElem_setIfInBounds hj, Vector.getElem_set i.isLt hj]
  rw [State.writeZone, if_neg (by rwa [Schedule.offset_fin]), hset]

end

section
variable {l : Link} {tag : Tag} {index offset : Octet} {s : State}

theorem actSetZone_badArgument (h : 3 < index.toNat) :
    actSetZone index offset s = .plain .badArgument s := if_pos h

theorem actSetZone_inUse (h : index.toNat ≤ 3) (hu : s.zoneInUse index.toNat = true) :
    actSetZone index offset s = .plain .inUse s := by
  rw [actSetZone, if_neg (by omega), if_pos hu]

theorem actSetZone_ok {i : Fin 4} (hi : index.toNat = i) (hu : ¬s.zoneInUse index.toNat = true) :
    actSetZone index offset s = .answered .ok (signedBE 1 (zoneOffset offset.toInt))
      (s.writeZone i (zoneOffset offset.toInt)) := by
  rw [actSetZone, if_neg (by omega), if_neg hu, hi]

/-- SET_ZONE taken up and refused. -/
theorem State.refuses_setZone {r : Result} (ht : s.takesUp (.setZone l tag index offset) = true)
    (ha : actSetZone index offset { s with exe := s.exe.serve l } =
      .plain r { s with exe := s.exe.serve l }) :
    s.Refuses (.setZone l tag index offset) r :=
  State.answers_of ht rfl (fun _ => rfl) ha

theorem actSelectZone_badArgument (h : 3 < index.toNat) :
    actSelectZone index s = .plain .badArgument s := if_pos h

theorem actSelectZone_onAir (h : index.toNat ≤ 3) (hn : s.key.nearTimeCode = true) :
    actSelectZone index s = .plain .onAir s := by
  rw [actSelectZone, if_neg (by omega), if_pos hn]

theorem actSelectZone_ok (h : index.toNat ≤ 3) (hn : ¬s.key.nearTimeCode = true) :
    actSelectZone index s =
      .plain .ok { s with sched := { s.sched with pendingZone := some index.toNat } } := by
  rw [actSelectZone, if_neg (by omega), if_neg hn]

/-- SELECT_ZONE taken up answers what the schedule makes of it on the executor's turn. -/
theorem State.answers_selectZone {r : Result} {block : State → State}
    (ht : s.takesUp (.selectZone l tag index) = true)
    (ha : actSelectZone index { s with exe := s.exe.serve l } =
      .plain r (block { s with exe := s.exe.serve l })) :
    s.Answers (.selectZone l tag index) r [] block :=
  State.answers_of ht rfl (fun _ => rfl) ha

end

end Sys2Proof.Machine

namespace Sys2Proof

open Sys2Proof.Machine

/-- Settles O43: POST_CHANGE by the outcome of its checks, in their order, and WITHDRAW_CHANGE by what the
first entry of its number is. -/
theorem changesArePostedAndWithdrawn : Obligations.ChangesArePostedAndWithdrawn := by
  refine ⟨?post, ?withdraw⟩
  case post =>
    intro l tag kind day minute zone lead s ht c e valid lead' g after clash
    refine ⟨fun hunset => State.answers_postChange ht (actPostChange_notReady hunset), fun hset => ?_⟩
    by_cases hkind : kind.toNat ≤ 2
    case neg =>
      have hnot : ¬valid := fun hv => hkind hv.1
      exact ⟨fun _ => State.answers_postChange ht (actPostChange_badKind hset (kindOf_eq_none hkind)),
        fun hv => absurd hv hnot, fun hv => absurd hv hnot⟩
    obtain ⟨kd, hk, hzone, hinsert⟩ := kindOf_of_le hkind
    let x := s.newEntry l kd day.toNat minute.toNat zone.toNat (normalLead lead.toNat)
    have he : x.e = e := by simp only [e, ← hzone]; exact linearMinute_effective kd day.toNat minute.toNat
    have hlead : x.lead = lead' := normalLead_toNat lead
    have hvalid : valid ↔ postingValid kd day.toNat minute.toNat zone.toNat s.tb.minute = true := by
      simp only [valid, e, ← hzone, postingValid_iff, hkind, true_and]
    have hclash : ∀ y, x.conflicts y = true ↔ clash y := fun y => by
      simp only [clash, ← hzone, ← hlead, ← he]
      exact x.conflicts_iff y
    have acts (hv : valid) : actPostChange l kind day minute zone lead { s with exe := s.exe.serve l } =
        { s with exe := s.exe.serve l }.post x := actPostChange_valid hset hk (hvalid.mp hv)
    refine ⟨fun hv => State.answers_postChange ht (actPostChange_badArgument hset hk (mt hvalid.mpr hv)),
      fun hv hlate => State.answers_postChange ht ((acts hv).trans (State.post_tooLate (he.trans_le hlate))),
      fun hv hg => ?_⟩
    have hearly : s.firstFrame < x.e := hg.trans_eq he.symm
    have hapart (hnone : ∀ y ∈ s.sched.entries, ¬clash y) : ∀ y ∈ s.sched.entries, ¬x.conflicts y = true :=
      fun y hy => mt (hclash y).mp (hnone y hy)
    refine ⟨fun before y rest hs hy hbefore => ?conflict, fun hnone hfull => ?full, fun hnone hroom => ?ok⟩
    case conflict =>
      exact State.answers_postChange ht ((acts hv).trans (State.post_conflict hearly hs ((hclash y).mpr hy)
        fun z hz => mt (hclash z).mp (hbefore z hz)))
    case full =>
      exact State.answers_postChange ht ((acts hv).trans (State.post_full hearly (hapart hnone) hfull))
    case ok =>
      have hdata : x.postedData s.firstFrame = octetsBE 1 x.number ++ octetsBE 2 lead' ++
          octetsBE 2 (min lead' (e - g)) ++ encFlag (decide (e - g < lead')) := by
        rw [← hlead, ← he]; rfl
      obtain ⟨hrun, hfree⟩ := Schedule.freeNumber_entries hroom
      refine ⟨x, s.insertChange x, hdata ▸ State.answersWith_of ht rfl (fun _ => rfl)
        ((acts hv).trans (State.post_ok hearly (hapart hnone) hroom)), hrun, hfree, rfl, hzone, hinsert, he,
        by simp only [← hzone]; rfl, hlead, rfl, rfl, rfl, by simp only [← hzone]; rfl,
        insertEntry_split x s.sched.entries, rfl, (State.scheduleChanged_views _).1,
        (State.scheduleChanged_views _).2, rfl, rfl⟩
  case withdraw =>
    intro l tag number s ht c
    refine ⟨fun hzero => State.refuses_withdrawChange ht (actWithdrawChange_badArgument hzero),
      fun hnum hnone => State.refuses_withdrawChange ht (actWithdrawChange_notFound hnum hnone),
      fun hnum before x after hs hx hbefore => ?_⟩
    have hfound : actWithdrawChange l number { s with exe := s.exe.serve l } =
        if x.announcing then .plain .onAir { s with exe := s.exe.serve l }
        else .plain .ok { s.withdraw l x with exe := s.exe.serve l } :=
      actWithdrawChange_found hnum hs hx hbefore
    refine ⟨fun hann => State.refuses_withdrawChange ht (hfound.trans (if_pos hann)),
      fun hann hafter => ?_⟩
    have hkeep : ¬x.announcing = true := by simp [hann]
    exact ⟨s.withdraw l x, State.answersWith_of ht rfl (fun _ => rfl) (hfound.trans (if_neg hkeep)),
      State.withdraw_entries hs (by rwa [hx]) (by rwa [hx]), State.withdraw_retired s l x, rfl,
      (State.scheduleChanged_views _).1, (State.scheduleChanged_views _).2, rfl, rfl⟩

/-- Settles O44: the zone table answers each request by its checks, in their order; a write stores the
offset as limited, and counts as a change only if the stored one differs. -/
theorem zoneRequestsAct : Obligations.ZoneRequestsAct := by
  refine ⟨?set, ?select⟩
  case set =>
    intro l tag index offset s ht c near inUse q
    have huse : s.zoneInUse index.toNat = true ↔ inUse := s.zoneInUse_iff index.toNat
    refine ⟨fun hbad => State.refuses_setZone ht (actSetZone_badArgument hbad),
      fun hle hin => State.refuses_setZone ht (actSetZone_inUse hle (huse.mpr hin)), fun i hi hfree => ?_⟩
    have hq : zoneOffset offset.toInt = q := zoneOffset_eq offset.toInt
    have hact : actSetZone index offset { s with exe := s.exe.serve l } =
        .answered .ok (signedBE 1 q) { s.writeZone i q with exe := s.exe.serve l } := by
      rw [← hq, ← State.writeZone_exe]
      exact actSetZone_ok hi (mt huse.mp hfree)
    refine ⟨s.writeZone i q, State.answersWith_of ht rfl (fun _ => rfl) hact, ?_⟩
    by_cases hsame : s.sched.offsets[i] = q
    · rw [State.writeZone_same hsame]
      refine ⟨?_, fun _ => rfl, fun hne => absurd hsame hne, rfl⟩
      rw [← hsame]
      simp
    · rw [State.writeZone_changed hsame]
      exact ⟨rfl, fun heq => absurd heq hsame,
        fun _ => ⟨rfl, (State.scheduleChanged_views _).1, (State.scheduleChanged_views _).2⟩, rfl⟩
  case select =>
    intro l tag index s ht c near
    have hnear : s.key.nearTimeCode = true ↔ near := s.key.nearTimeCode_iff
    exact ⟨fun hbad => State.answers_selectZone ht (actSelectZone_badArgument hbad),
      fun hle hin => State.answers_selectZone ht (actSelectZone_onAir hle (hnear.mpr hin)),
      fun hle hout => State.answers_selectZone ht (actSelectZone_ok hle (mt hnear.mp hout))⟩

end Sys2Proof

/-! The notice channel (R106..R108): what the composer answers in each case of a notice request, and where
the notice position goes when a frame is taken. -/

namespace Sys2Proof.Machine

/-! ## The arguments of the notice requests (R15, R107) -/

theorem slotOf_eq_none {o : Octet} (h : 1 < o.toNat) : slotOf o = none := by
  unfold slotOf
  split
  · omega
  · omega
  · rfl

theorem slotOf_code (x : Slot) : slotOf (match x with | .s0 => 0 | .s1 => 1) = some x := by
  cases x with
  | s0 => rfl
  | s1 => rfl

theorem noticeOctetValid_iff (o : Octet) :
    noticeOctetValid o = true ↔ 0x20 ≤ o.toNat ∧ o.toNat ≤ 0x7E := by
  simp [noticeOctetValid]

theorem all_noticeOctetValid_iff (text : List Octet) :
    text.all noticeOctetValid = true ↔ ∀ o ∈ text, 0x20 ≤ o.toNat ∧ o.toNat ≤ 0x7E := by
  simp only [List.all_eq_true, noticeOctetValid_iff]

/-- The check of WRITE_NOTICE on a text: at most 32 octets, each one that a notice may hold. -/
theorem noticeText_refused_iff (text : List Octet) :
    (32 < text.length || !text.all noticeOctetValid) = true ↔
      32 < text.length ∨ ∃ o ∈ text, o.toNat < 0x20 ∨ 0x7E < o.toNat := by
  have hbad : ¬text.all noticeOctetValid = true ↔ ∃ o ∈ text, o.toNat < 0x20 ∨ 0x7E < o.toNat := by
    simp only [all_noticeOctetValid_iff, not_forall, exists_prop, not_and_or, not_le]
  rw [Bool.or_eq_true, decide_eq_true_iff, Bool.not_eq_true', ← Bool.not_eq_true, hbad]

/-! ## WRITE_NOTICE and SELECT_NOTICE (R107, R108) -/

section
variable {l : Link} {tag : Tag} {slot : Octet} {text : List Octet} {x : Slot} {s : State}

theorem actWriteNotice_badSlot (h : slotOf slot = none) :
    actWriteNotice slot text s = .plain .badArgument s := by
  rw [actWriteNotice, h]

theorem actWriteNotice_inUse (h : slotOf slot = some x) (hx : s.comp.active = x) :
    actWriteNotice slot text s = .plain .inUse s := by
  rw [actWriteNotice, h]
  exact if_pos hx.symm

theorem actWriteNotice_badText (h : slotOf slot = some x) (hx : s.comp.active ≠ x)
    (ht : 32 < text.length ∨ ∃ o ∈ text, o.toNat < 0x20 ∨ 0x7E < o.toNat) :
    actWriteNotice slot text s = .plain .badArgument s := by
  rw [actWriteNotice, h]
  exact (if_neg hx.symm).trans (if_pos ((noticeText_refused_iff text).mpr ht))

theorem actWriteNotice_ok (h : slotOf slot = some x) (hx : s.comp.active ≠ x) (hlen : text.length ≤ 32)
    (hall : ∀ o ∈ text, 0x20 ≤ o.toNat ∧ o.toNat ≤ 0x7E) :
    actWriteNotice slot text s = .plain .ok { s with comp := s.comp.setText x text } := by
  have hgood : ¬(32 < text.length || !text.all noticeOctetValid) = true := by
    rw [(all_noticeOctetValid_iff text).mpr hall]
    simpa using hlen
  rw [actWriteNotice, h]
  exact (if_neg hx.symm).trans (if_neg hgood)

theorem actSelectNotice_badSlot (h : slotOf slot = none) :
    actSelectNotice slot s = .plain .badArgument s := by
  rw [actSelectNotice, h]

theorem actSelectNotice_ok (h : slotOf slot = some x) :
    actSelectNotice slot s = .plain .ok { s with comp := { s.comp with
      pendingSlot := if s.comp.active = x then none else some x } } := by
  have hpending : (if x = s.comp.active then none else some x) =
      if s.comp.active = x then none else some x := if_congr eq_comm rfl rfl
  rw [actSelectNotice, h, ← hpending]

/-- WRITE_NOTICE taken up answers what the composer makes of it on the executor's turn. -/
theorem State.answers_writeNotice {r : Result} {block : State → State}
    (ht : s.takesUp (.writeNotice l tag slot text) = true)
    (ha : actWriteNotice slot text { s with exe := s.exe.serve l } =
      .plain r (block { s with exe := s.exe.serve l })) :
    s.Answers (.writeNotice l tag slot text) r [] block :=
  State.answers_of ht rfl (fun _ => rfl) ha

/-- SELECT_NOTICE taken up answers what the composer makes of it on the executor's turn. -/
theorem State.answers_selectNotice {r : Result} {block : State → State}
    (ht : s.takesUp (.selectNotice l tag slot) = true)
    (ha : actSelectNotice slot { s with exe := s.exe.serve l } =
      .plain r (block { s with exe := s.exe.serve l })) :
    s.Answers (.selectNotice l tag slot) r [] block :=
  State.answers_of ht rfl (fun _ => rfl) ha

end

/-! ## The notice position (R106) -/

section
variable {k : Composer} {r : FrameRecord}

/-- The low nibble follows the high nibble of the same octet. -/
theorem Composer.taken_high (h : r.low = false) :
    k.taken r = { k with octIdx := r.octIdx, low := true } := by
  rw [Composer.taken, if_pos (by simp [h])]

/-- After the low nibble the next octet of the text follows. -/
theorem Composer.taken_low_next (h : r.low = true) (hin : r.octIdx + 1 < k.activeText.length) :
    k.taken r = { k with octIdx := r.octIdx + 1, low := false } := by
  rw [Composer.taken, if_neg (by simp [h]), if_pos hin]

/-- After the low nibble of the last octet the next cycle begins, in the slot that was pending. -/
theorem Composer.taken_low_end (h : r.low = true) (hend : (k.activeText.length : Int) ≤ r.octIdx + 1) :
    k.taken r = { k with
      active := k.pendingSlot.getD k.active, pendingSlot := none, octIdx := -1, low := false } := by
  rw [Composer.taken, if_neg (by simp [h]), if_neg (not_lt.mpr hend)]

end

end Sys2Proof.Machine

namespace Sys2Proof

open Sys2Proof.Machine

/-- Settles O47: the notice requests by the outcome of their checks, in their order, and the three moves of
the notice position. -/
theorem noticeRequestsAct : Obligations.NoticeRequestsAct := by
  refine ⟨?write, ?select, ?position⟩
  case write =>
    intro l tag slot text s ht c
    refine ⟨fun hslot => State.answers_writeNotice ht (actWriteNotice_badSlot (slotOf_eq_none hslot)),
      fun x hslot => ?_⟩
    have hx : slotOf slot = some x := hslot ▸ slotOf_code x
    exact ⟨fun hact => State.answers_writeNotice ht (actWriteNotice_inUse hx hact),
      fun hact hbad => State.answers_writeNotice ht (actWriteNotice_badText hx hact hbad),
      fun hact hlen hall => State.answers_writeNotice ht (actWriteNotice_ok hx hact hlen hall)⟩
  case select =>
    intro l tag slot s ht
    refine ⟨fun hslot => State.answers_selectNotice ht (actSelectNotice_badSlot (slotOf_eq_none hslot)),
      fun x hslot => ?_⟩
    have hx : slotOf slot = some x := hslot ▸ slotOf_code x
    exact State.answers_selectNotice ht (actSelectNotice_ok hx)
  case position =>
    intro k r
    exact ⟨Composer.taken_high, Composer.taken_low_next, Composer.taken_low_end⟩

end Sys2Proof

/-! The keyer's requests for a mode and for maintenance (R115..R117, R120, R121): which octets name a mode,
what the on-air checks ask, and what the keyer answers in each case of SET_MODE and of MAINTENANCE. -/

namespace Sys2Proof.Machine

/-! ## The argument of SET_MODE (R209) -/

theorem modeOf_eq_none {o : Octet} (h : 3 < o.toNat) : modeOf o = none := by
  unfold modeOf
  split
  · omega
  · omega
  · omega
  · omega
  · rfl

theorem modeOf_code (m : Mode) :
    modeOf (match m with | .offAir => 0 | .carrierOnly => 1 | .timeCode => 2 | .testPattern => 3) =
      some m := by
  cases m with
  | offAir => rfl
  | carrierOnly => rfl
  | timeCode => rfl
  | testPattern => rfl

/-! ## On air, and the checks to come on air (R113, R115) -/

theorem Keyer.onAir_iff (k : Keyer) : k.onAir = true ↔ k.mode ≠ .offAir := by
  simp [Keyer.onAir]

/-- Lock and readiness are asked of a keyer off air alone, time SET for TIME_CODE alone. -/
theorem State.onAirChecks_iff (s : State) (m : Mode) : s.onAirChecks m = true ↔
    (s.key.mode = .offAir → s.synth.st = .locked ∧ s.transmitterReady = true) ∧
      (m = .timeCode → s.tb.timeSet = true) := by
  simp only [State.onAirChecks, Bool.and_eq_true, Bool.or_eq_true, Keyer.onAir_iff, decide_eq_true_iff]
  tauto

/-- A mode that becomes pending drops a waiting phase step if it is TIME_CODE (R34). -/
theorem State.setPendingMode_eq (s : State) (m : Mode) : s.setPendingMode m = { s with
    key := { s.key with pendingMode := some m }
    tb := { s.tb with stepWaiting := s.tb.stepWaiting && decide (m ≠ .timeCode) } } := by
  by_cases hm : m = .timeCode
  · simp [State.setPendingMode, State.abandonStep, hm]
  · simp [State.setPendingMode, hm]

/-! ## SET_MODE (R116, R117, R120) -/

section
variable {l : Link} {tag : Tag} {o : Octet} {m : Mode} {s : State}

theorem State.requestOnAir_same (h : s.key.mode = m) : s.requestOnAir m =
    .plain .ok { s with key := { s.key with pendingMode := none, offReq := none, deferred := false } } :=
  if_pos h

theorem State.requestOnAir_notReady (h : s.key.mode ≠ m) (hc : ¬s.onAirChecks m = true) :
    s.requestOnAir m = .plain .notReady s := by
  rw [State.requestOnAir, if_neg h, if_pos (by simpa using hc)]

theorem State.requestOnAir_pending (h : s.key.mode ≠ m) (hc : s.onAirChecks m = true) :
    s.requestOnAir m = .plain .pending { s with
      key := { s.key with pendingMode := some m, maint := none, offReq := none, deferred := false }
      tb := { s.tb with stepWaiting := s.tb.stepWaiting && decide (m ≠ .timeCode) } } := by
  rw [State.requestOnAir, if_neg h, if_neg (by simpa using hc)]
  exact congrArg (Acted.plain .pending) (State.setPendingMode_eq _ m)

theorem actSetMode_badArgument (h : modeOf o = none) : actSetMode o s = .plain .badArgument s := by
  rw [actSetMode, h]

theorem actSetMode_offAir_off (h : modeOf o = some .offAir) (hk : s.key.mode = .offAir) :
    actSetMode o s = .plain .ok { s with key := { s.key with pendingMode := none, maint := none } } := by
  rw [actSetMode, h]
  exact if_neg (by simp [Keyer.onAir_iff, hk])

theorem actSetMode_offAir_on (h : modeOf o = some .offAir) (hk : s.key.mode ≠ .offAir) :
    actSetMode o s = .plain .pending { s with key := { s.key with
      pendingMode := none, offReq := some { until_ := none, deferred := false } } } := by
  rw [actSetMode, h]
  exact if_pos (s.key.onAir_iff.mpr hk)

theorem actSetMode_onAir (h : modeOf o = some m) (hm : m ≠ .offAir) :
    actSetMode o s = s.requestOnAir m := by
  rw [actSetMode, h]
  cases m with
  | offAir => exact absurd rfl hm
  | carrierOnly => rfl
  | timeCode => rfl
  | testPattern => rfl

/-- SET_MODE taken up answers what the keyer makes of it on the executor's turn. -/
theorem State.answers_setMode {r : Result} {block : State → State}
    (ht : s.takesUp (.setMode l tag o) = true)
    (ha : actSetMode o { s with exe := s.exe.serve l } =
      .plain r (block { s with exe := s.exe.serve l })) :
    s.Answers (.setMode l tag o) r [] block :=
  State.answers_of ht rfl (fun _ => rfl) ha

end

/-! ## MAINTENANCE (R121) -/

/-- What the keyer makes of an end that passes its checks: on air it waits to go off until then, off air
the end becomes that of the record. -/
def State.acceptMaintenance (s : State) (day minute : Nat) : Acted :=
  if s.key.onAir then .plain .pending { s with key := s.key.waitOffAir (some (day, minute)) }
  else match s.key.maint with
    | none => .plain .notReady s
    | some r =>
      .plain .ok { s with key := { s.key with maint := some { r with endDay := day, endMinute := minute } } }

section
variable {day minute : Nat} {s : State}

theorem State.acceptMaintenance_onAir (h : s.key.mode ≠ .offAir) :
    s.acceptMaintenance day minute = .plain .pending { s with key := { s.key with
      pendingMode := none, offReq := some { until_ := some (day, minute), deferred := false } } } :=
  if_pos (s.key.onAir_iff.mpr h)

theorem State.acceptMaintenance_noRecord (h : s.key.mode = .offAir) (hr : s.key.maint = none) :
    s.acceptMaintenance day minute = .plain .notReady s := by
  rw [State.acceptMaintenance, if_neg (by simp [Keyer.onAir_iff, h]), hr]

theorem State.acceptMaintenance_record {r : Maint} (h : s.key.mode = .offAir)
    (hr : s.key.maint = some r) :
    s.acceptMaintenance day minute = .plain .ok { s with key := { s.key with
      maint := some { r with endDay := day, endMinute := minute } } } := by
  rw [State.acceptMaintenance, if_neg (by simp [Keyer.onAir_iff, h]), hr]

end

section
variable {l : Link} {tag : Tag} {day minute : BitVec 16} {s : State}

theorem actMaintenance_outOfRange (h : 36524 < day.toNat ∨ 1439 < minute.toNat) :
    actMaintenance day minute s = .plain .badArgument s :=
  if_pos (by simpa using h)

/-- The checks that follow those of the range, and what follows them all. -/
theorem actMaintenance_inRange (hd : day.toNat ≤ 36524) (hm : minute.toNat ≤ 1439) :
    actMaintenance day minute s =
      if !s.tb.timeSet then .plain .notReady s
      else if linearMinute day.toNat minute.toNat ≤ s.tb.minute ||
          s.tb.minute + 10080 < linearMinute day.toNat minute.toNat then .plain .badArgument s
      else s.acceptMaintenance day.toNat minute.toNat :=
  if_neg (by simp [hd, hm])

theorem actMaintenance_unset (hd : day.toNat ≤ 36524) (hm : minute.toNat ≤ 1439)
    (ht : s.tb.timeSet = false) : actMaintenance day minute s = .plain .notReady s := by
  rw [actMaintenance_inRange hd hm, if_pos (by simp [ht])]

theorem actMaintenance_badEnd (hd : day.toNat ≤ 36524) (hm : minute.toNat ≤ 1439)
    (ht : s.tb.timeSet = true)
    (he : linearMinute day.toNat minute.toNat ≤ s.tb.minute ∨
      s.tb.minute + 10080 < linearMinute day.toNat minute.toNat) :
    actMaintenance day minute s = .plain .badArgument s := by
  rw [actMaintenance_inRange hd hm, if_neg (by simp [ht]), if_pos (by simpa using he)]

theorem actMaintenance_accepted (hd : day.toNat ≤ 36524) (hm : minute.toNat ≤ 1439)
    (ht : s.tb.timeSet = true) (hlater : s.tb.minute < linearMinute day.toNat minute.toNat)
    (hnear : linearMinute day.toNat minute.toNat ≤ s.tb.minute + 10080) :
    actMaintenance day minute s = s.acceptMaintenance day.toNat minute.toNat := by
  rw [actMaintenance_inRange hd hm, if_neg (by simp [ht]), if_neg (by simp [hlater, hnear])]

/-- MAINTENANCE taken up answers what the keyer makes of it on the executor's turn. -/
theorem State.answers_maintenance {r : Result} {block : State → State}
    (ht : s.takesUp (.maintenance l tag day minute) = true)
    (ha : actMaintenance day minute { s with exe := s.exe.serve l } =
      .plain r (block { s with exe := s.exe.serve l })) :
    s.Answers (.maintenance l tag day minute) r [] block :=
  State.answers_of ht rfl (fun _ => rfl) ha

end

end Sys2Proof.Machine

namespace Sys2Proof

open Sys2Proof.Machine

/-- Settles O35: SET_MODE by the mode it names, and for an on-air mode by the mode in use and the on-air
checks. -/
theorem setModeIsCheckedAndPending : Obligations.SetModeIsCheckedAndPending := by
  intro l tag o s ht c
  refine ⟨fun hbad => State.answers_setMode ht (actSetMode_badArgument (modeOf_eq_none hbad)),
    fun hzero hk => State.answers_setMode ht (actSetMode_offAir_off (hzero ▸ rfl) hk),
    fun hzero hk => State.answers_setMode ht (actSetMode_offAir_on (hzero ▸ rfl) hk), fun m hcode hm => ?_⟩
  have hact : actSetMode o { s with exe := s.exe.serve l } =
      { s with exe := s.exe.serve l }.requestOnAir m :=
    actSetMode_onAir (hcode ▸ modeOf_code m) hm
  have hchecks := s.onAirChecks_iff m
  refine ⟨fun hsame => ?same, fun hother hfails => ?notReady, fun hother hair htime => ?pending⟩
  case same => exact State.answers_setMode ht (hact.trans (State.requestOnAir_same hsame))
  case notReady =>
    have hnot : ¬s.onAirChecks m = true := by
      intro hc
      obtain ⟨hair, htime⟩ := hchecks.mp hc
      rcases hfails with ⟨hoff, hunready⟩ | ⟨htimeCode, hunset⟩
      · exact hunready (hair hoff)
      · simp [htime htimeCode] at hunset
    exact State.answers_setMode ht (hact.trans (State.requestOnAir_notReady hother hnot))
  case pending =>
    exact State.answers_setMode ht
      (hact.trans (State.requestOnAir_pending hother (hchecks.mpr ⟨hair, htime⟩)))

/-- Settles O37: MAINTENANCE by the outcome of its checks, in their order, and an end that passes them by
the keyer's mode and its record. -/
theorem maintenanceIsCheckedInOrder : Obligations.MaintenanceIsCheckedInOrder := by
  intro l tag d m s ht c e now
  refine ⟨fun hout => State.answers_maintenance ht (actMaintenance_outOfRange hout),
    fun hd hm hunset => State.answers_maintenance ht (actMaintenance_unset hd hm hunset),
    fun hd hm hset =>
      ⟨fun hend => State.answers_maintenance ht (actMaintenance_badEnd hd hm hset hend),
        fun hlater hnear => ?_⟩⟩
  have hact : actMaintenance d m { s with exe := s.exe.serve l } =
      { s with exe := s.exe.serve l }.acceptMaintenance d.toNat m.toNat :=
    actMaintenance_accepted hd hm hset hlater hnear
  exact ⟨fun hoff hnone =>
      State.answers_maintenance ht (hact.trans (State.acceptMaintenance_noRecord hoff hnone)),
    fun hon => State.answers_maintenance ht (hact.trans (State.acceptMaintenance_onAir hon)),
    fun r hoff hr =>
      State.answers_maintenance ht (hact.trans (State.acceptMaintenance_record hoff hr))⟩

end Sys2Proof

/-! The synthesizer's requests (R138, R139, R141, R146): the checks of SET_SYNTH in their order, on settings
in which 0 is taken as 1, what the synthesizer answers in each case of a request, and what stopping the loop
leaves. -/

namespace Sys2Proof.Machine

/-! ## The checks of SET_SYNTH (R138) -/

/-- An N or a K of 0 is taken as 1. -/
theorem max_one_toNat (v : BitVec 16) : max 1 v.toNat = if v = 0 then 1 else v.toNat := by
  by_cases hzero : v = 0
  · subst hzero; rfl
  · have hpos : v.toNat ≠ 0 := by bv_omega
    rw [if_neg hzero]
    omega

/-- The limits of the band that an octet names. -/
theorem bandLimits_octet (b : Octet) : bandLimits b.toNat =
    (if b = 0 then 16000000 else if b = 1 then 32000001 else 64000001,
      if b = 0 then 32000000 else if b = 1 then 64000000 else 128000000) := by
  by_cases hzero : b = 0
  · subst hzero; rfl
  by_cases hone : b = 1
  · subst hone; rfl
  have hne : b.toNat ≠ 0 ∧ b.toNat ≠ 1 := by bv_omega
  simp only [if_neg hzero, if_neg hone]
  simp [bandLimits, hne]

theorem loopInBand_iff (n k b : Nat) : loopInBand n k b = true ↔
    (bandLimits b).1 * k ≤ 10000000 * n ∧ 10000000 * n ≤ (bandLimits b).2 * k := by
  simp [loopInBand]

/-- The carrier's limits, against the whole divider of the loop frequency. -/
theorem carrierInRange_iff (n k p : Nat) : carrierInRange n k p = true ↔
    30000 * (k * (256 * 2 ^ p)) ≤ 10000000 * n ∧ 10000000 * n ≤ 150000 * (k * (256 * 2 ^ p)) := by
  simp [carrierInRange, mul_assoc]

section
variable {n k p b : Nat}

theorem synthFault_range (h : 16383 < n ∨ 1023 < k ∨ 7 < p ∨ 3 < b) :
    synthFault n k p b = some .range :=
  if_pos (by simpa [or_assoc] using h)

/-- The checks that follow that of the range. -/
theorem synthFault_inRange (hn : n ≤ 16383) (hk : k ≤ 1023) (hp : p ≤ 7) (hb : b ≤ 3) :
    synthFault n k p b =
      if b = 3 then some .band
      else if !loopInBand n k b then some .loop
      else if !carrierInRange n k p then some .carrier
      else none :=
  if_neg (by simp [hn, hk, hp, hb])

theorem synthFault_band (hn : n ≤ 16383) (hk : k ≤ 1023) (hp : p ≤ 7) :
    synthFault n k p 3 = some .band := by
  rw [synthFault_inRange hn hk hp le_rfl, if_pos rfl]

theorem synthFault_loop (hn : n ≤ 16383) (hk : k ≤ 1023) (hp : p ≤ 7) (hb : b < 3)
    (hl : ¬loopInBand n k b = true) : synthFault n k p b = some .loop := by
  rw [synthFault_inRange hn hk hp hb.le, if_neg hb.ne, if_pos (by simpa using hl)]

theorem synthFault_carrier (hn : n ≤ 16383) (hk : k ≤ 1023) (hp : p ≤ 7) (hb : b < 3)
    (hl : loopInBand n k b = true) (hc : ¬carrierInRange n k p = true) :
    synthFault n k p b = some .carrier := by
  rw [synthFault_inRange hn hk hp hb.le, if_neg hb.ne, if_neg (by simp [hl]),
    if_pos (by simpa using hc)]

theorem synthFault_none (hn : n ≤ 16383) (hk : k ≤ 1023) (hp : p ≤ 7) (hb : b < 3)
    (hl : loopInBand n k b = true) (hc : carrierInRange n k p = true) :
    synthFault n k p b = none := by
  rw [synthFault_inRange hn hk hp hb.le, if_neg hb.ne, if_neg (by simp [hl]), if_neg (by simp [hc])]

end

/-! ## SET_SYNTH (R138, R139) -/

theorem octetsBE_one_toNat (o : Octet) : octetsBE 1 o.toNat = [o] := by
  simp [octetsBE]

section
variable {l : Link} {tag : Tag} {n k : BitVec 16} {p b : Octet} {n' k' : Nat} {s : State}

theorem actSetSynth_inUse (h : s.synth.st ≠ .off) : actSetSynth n k p b s = .plain .inUse s :=
  if_pos h

theorem actSetSynth_fault {r : SynthReason} (h : s.synth.st = .off) (hn : max 1 n.toNat = n')
    (hk : max 1 k.toNat = k') (hf : synthFault n' k' p.toNat b.toNat = some r) :
    actSetSynth n k p b s = .answered .badArgument [r.code] s := by
  rw [actSetSynth, if_neg (not_not_intro h), hn, hk, hf]

theorem actSetSynth_ok (h : s.synth.st = .off) (hn : max 1 n.toNat = n') (hk : max 1 k.toNat = k')
    (hf : synthFault n' k' p.toNat b.toNat = none) :
    actSetSynth n k p b s = .answered .ok
      (octetsBE 2 n' ++ octetsBE 2 k' ++ [p, b] ++ octetsBE 5 (loopMHz n' k') ++
        octetsBE 5 (carrierMHz n' k' p.toNat))
      { s with synth := { s.synth with n := n', k := k', p := p.toNat, b := b.toNat } } := by
  rw [actSetSynth, if_neg (not_not_intro h), hn, hk, hf]
  simp [octetsBE_one_toNat]

/-- SET_SYNTH taken up answers what the synthesizer makes of it on the executor's turn. -/
theorem State.answers_setSynth {r : Result} {data : List Octet} {block : State → State}
    (ht : s.takesUp (.setSynth l tag n k p b) = true)
    (ha : actSetSynth n k p b { s with exe := s.exe.serve l } =
      .answered r data (block { s with exe := s.exe.serve l })) :
    s.Answers (.setSynth l tag n k p b) r data block :=
  State.answers_of ht rfl (fun _ => rfl) ha

/-- SET_SYNTH taken up in OFF is refused with the check that its settings fail. -/
theorem State.answers_setSynth_fault {r : SynthReason} (ht : s.takesUp (.setSynth l tag n k p b) = true)
    (h : s.synth.st = .off) (hn : max 1 n.toNat = n') (hk : max 1 k.toNat = k')
    (hf : synthFault n' k' p.toNat b.toNat = some r) :
    s.Answers (.setSynth l tag n k p b) .badArgument [r.code] id :=
  State.answers_setSynth ht (actSetSynth_fault h hn hk hf)

end

/-! ## SYNTH_ON and SYNTH_OFF (R141, R146) -/

/-- SYNTH_LOCK_CHANGE is item 16 of both views. -/
theorem State.raise_synthLockChange_views (s : State) :
    (s.raise .synthLockChange).cond.viewA.getLsbD 16 = true ∧
      (s.raise .synthLockChange).cond.viewB.getLsbD 16 = true := by
  simp [State.raise, Conditions.addToViews, Event.item]

/-- The state in which the loop has stopped. -/
def State.synthStopped (s : State) : State :=
  { s with synth := s.synth.stop }.raiseIf (s.synth.st = SynthState.locked) .synthLockChange

theorem State.synthStopped_synth (s : State) : s.synthStopped.synth = s.synth.stop := by
  simp [State.synthStopped]

/-- A stopped loop drives no carrier (R140). -/
theorem State.synthStopped_carrOut (s : State) : s.synthStopped.carrOut = .low := by
  simp [State.carrOut, State.synthStopped_synth, Synth.stop]

theorem State.synthStopped_locked {s : State} (h : s.synth.st = .locked) :
    s.synthStopped = { s with synth := s.synth.stop }.raise .synthLockChange :=
  if_pos (by simp [h])

theorem State.synthStopped_unlocked {s : State} (h : s.synth.st ≠ .locked) :
    s.synthStopped = { s with synth := s.synth.stop } :=
  if_neg (by simp [h])

/-- Stopping the loop changes the synthesizer and the conditions alone. -/
theorem State.synthStopped_frame (s : State) :
    s.synthStopped = { s with synth := s.synthStopped.synth, cond := s.synthStopped.cond } := by
  by_cases h : s.synth.st = .locked
  · rw [State.synthStopped_locked h]; rfl
  · rw [State.synthStopped_unlocked h]

/-- Stopping the loop does not touch the executor's turn. -/
theorem State.synthStopped_exe (s : State) (x : Executor) :
    { s with exe := x }.synthStopped = { s.synthStopped with exe := x } := by
  by_cases h : s.synth.st = .locked
  · rw [State.synthStopped_locked h, State.synthStopped_locked (s := { s with exe := x }) h]; rfl
  · rw [State.synthStopped_unlocked h, State.synthStopped_unlocked (s := { s with exe := x }) h]

section
variable {l : Link} {tag : Tag} {s : State}

theorem actSynthOn_off (h : s.synth.st = .off) :
    actSynthOn s = .plain .ok { s with synth := s.synth.acquire s.now } := by
  rw [actSynthOn, h]

theorem actSynthOn_running (h : s.synth.st ≠ .off) : actSynthOn s = .plain .ok s := by
  cases hst : s.synth.st with
  | off => exact absurd hst h
  | acquiring => rw [actSynthOn, hst]
  | locked => rw [actSynthOn, hst]

theorem actSynthOff_off (h : s.synth.st = .off) : actSynthOff s = .plain .ok s :=
  if_pos h

theorem actSynthOff_onAir (h : s.synth.st ≠ .off) (hk : s.key.mode ≠ .offAir) :
    actSynthOff s = .plain .onAir s := by
  rw [actSynthOff, if_neg h, if_pos (s.key.onAir_iff.mpr hk)]

theorem actSynthOff_offAir (h : s.synth.st ≠ .off) (hk : s.key.mode = .offAir) :
    actSynthOff s = .plain .ok s.synthStopped := by
  rw [actSynthOff, if_neg h, if_neg (by simp [Keyer.onAir_iff, hk])]
  rfl

/-- SYNTH_ON taken up answers what the synthesizer makes of it on the executor's turn. -/
theorem State.answers_synthOn {r : Result} {block : State → State}
    (ht : s.takesUp (.synthOn l tag) = true)
    (ha : actSynthOn { s with exe := s.exe.serve l } = .plain r (block { s with exe := s.exe.serve l })) :
    s.Answers (.synthOn l tag) r [] block :=
  State.answers_of ht rfl (fun _ => rfl) ha

/-- SYNTH_OFF taken up answers what the synthesizer makes of it on the executor's turn. -/
theorem State.answers_synthOff {r : Result} {block : State → State}
    (ht : s.takesUp (.synthOff l tag) = true)
    (ha : actSynthOff { s with exe := s.exe.serve l } = .plain r (block { s with exe := s.exe.serve l })) :
    s.Answers (.synthOff l tag) r [] block :=
  State.answers_of ht rfl (fun _ => rfl) ha

/-- SYNTH_OFF taken up off air, with the loop running, leaves the loop stopped. -/
theorem State.answersWith_synthOff (ht : s.takesUp (.synthOff l tag) = true)
    (h : s.synth.st ≠ .off) (hk : s.key.mode = .offAir) :
    s.AnswersWith (.synthOff l tag) .ok [] s.synthStopped := by
  refine State.answersWith_of ht rfl (fun _ => rfl) ?_
  rw [actSynthOff_offAir (s := { s with exe := s.exe.serve l }) h hk, State.synthStopped_exe]

end

end Sys2Proof.Machine

namespace Sys2Proof

open Sys2Proof.Machine

/-- Settles O32: SET_SYNTH by the first of its checks that fails, in their order, and SYNTH_ON and SYNTH_OFF
by the state of the loop and, for the second, by the keyer's mode. -/
theorem synthRequestsAct : Obligations.SynthRequestsAct := by
  refine ⟨?setSynth, ?synthOn, ?synthOff⟩
  case setSynth =>
    intro l tag n k p b s ht c n' k' f
    have hn : max 1 n.toNat = n' := max_one_toNat n
    have hk : max 1 k.toNat = k' := max_one_toNat k
    refine ⟨fun hrun => State.answers_setSynth ht (actSetSynth_inUse hrun),
      fun hoff hout => State.answers_setSynth_fault ht hoff hn hk (synthFault_range hout),
      fun hoff hn' hk' hp hb => ?band, fun hoff hn' hk' hp hb => ?_⟩
    case band =>
      subst hb
      exact State.answers_setSynth_fault ht hoff hn hk (synthFault_band hn' hk' hp)
    intro lo hi d
    have hloop : loopInBand n' k' b.toNat = true ↔ lo * k' ≤ f ∧ f ≤ hi * k' := by
      rw [loopInBand_iff, bandLimits_octet]
    have hcarrier : carrierInRange n' k' p.toNat = true ↔ 30000 * d ≤ f ∧ f ≤ 150000 * d :=
      carrierInRange_iff n' k' p.toNat
    refine ⟨fun hbad => ?loop, fun hlo hhi hbad => ?carrier, fun hlo hhi hclo hchi => ?ok⟩
    case loop =>
      have hnot : ¬loopInBand n' k' b.toNat = true := by rw [hloop]; omega
      exact State.answers_setSynth_fault ht hoff hn hk (synthFault_loop hn' hk' hp hb hnot)
    case carrier =>
      have hnot : ¬carrierInRange n' k' p.toNat = true := by rw [hcarrier]; omega
      exact State.answers_setSynth_fault ht hoff hn hk
        (synthFault_carrier hn' hk' hp hb (hloop.mpr ⟨hlo, hhi⟩) hnot)
    case ok =>
      exact State.answers_setSynth ht (actSetSynth_ok hoff hn hk
        (synthFault_none hn' hk' hp hb (hloop.mpr ⟨hlo, hhi⟩) (hcarrier.mpr ⟨hclo, hchi⟩)))
  case synthOn =>
    intro l tag s ht
    exact ⟨fun hoff => State.answers_synthOn ht (actSynthOn_off hoff),
      fun hrun => State.answers_synthOn ht (actSynthOn_running hrun)⟩
  case synthOff =>
    intro l tag s ht
    refine ⟨fun hoff => State.answers_synthOff ht (actSynthOff_off hoff),
      fun hrun hair => State.answers_synthOff ht (actSynthOff_onAir hrun hair),
      fun hrun hair => ⟨s.synthStopped, State.answersWith_synthOff ht hrun hair, s.synthStopped_synth,
        s.synthStopped_carrOut, fun hlocked => ?locked, fun hacq => ?acquiring, s.synthStopped_frame⟩⟩
    case locked =>
      rw [State.synthStopped_locked hlocked]
      exact State.raise_synthLockChange_views _
    case acquiring =>
      rw [State.synthStopped_unlocked (by simp [hacq])]

end Sys2Proof

/-! The counters at a performance tick and at a second edge (R128, R197..R201): what counting and a tick do
to the part of the conditions block that they alone write, and that every other part of an edge keeps it. -/

namespace Sys2Proof.Machine

/-! ## The over-threshold set (R200) -/

theorem foldl_twoPow_getLsbD (p : Fin 12 → Bool) (i : Fin 12) (xs : List (Fin 12)) (set : CounterSet) :
    (xs.foldl (fun set j => if p j then set ||| BitVec.twoPow 12 j else set) set).getLsbD i =
      (set.getLsbD i || decide (i ∈ xs) && p i) := by
  induction xs generalizing set with
  | nil => simp
  | cons x xs ih =>
    rw [List.foldl_cons, ih]
    by_cases hx : i = x
    · subst hx
      cases p i <;> simp
    · have hbit : (BitVec.twoPow 12 x.val).getLsbD i = false := by
        rw [BitVec.getLsbD_twoPow, decide_eq_false (show ¬x.val = i.val by omega), Bool.and_false]
      have hset : (if p x then set ||| BitVec.twoPow 12 x.val else set).getLsbD i = set.getLsbD i := by
        split
        · rw [BitVec.getLsbD_or, hbit, Bool.or_false]
        · rfl
      simp only [hset, List.mem_cons, hx, false_or]

/-- The set of a tick holds the counters at or above a threshold that is not 0. -/
theorem Conditions.over_getLsbD (c : Conditions) (i : Fin 12) :
    c.over.getLsbD i = decide (c.thresholds[i] ≠ 0 ∧ c.thresholds[i] ≤ c.live[i]) := by
  rw [Conditions.over, foldl_twoPow_getLsbD]
  simp [Conditions.overAt]

/-! ## What counting and a tick write -/

/-- The part of the conditions block that counting and performance ticks act on: the counters with their
thresholds, and whether THRESHOLD and TICK are in each view. -/
structure TickPart where
  live : Vector Nat 12
  latched : Vector Nat 12
  thresholds : Vector Nat 12
  seq : Nat
  overSet : CounterSet
  thresholdIn : Link → Bool
  tickIn : Link → Bool

def Conditions.tickPart (c : Conditions) : TickPart where
  live := c.live
  latched := c.latched
  thresholds := c.thresholds
  seq := c.seq
  overSet := c.overSet
  thresholdIn := fun l => (c.view l).getLsbD Event.threshold.item
  tickIn := fun l => (c.view l).getLsbD Event.tick.item

/-- The live value of a counter goes up by `n` and saturates (R197). -/
def TickPart.count (p : TickPart) (c : Counter) (n : Nat) : TickPart :=
  { p with live := p.live.set c.id (min counterMax (p.live[c.id] + n)) }

theorem TickPart.count_live_self (p : TickPart) (c : Counter) (n : Nat) :
    (p.count c n).live[c.id] = min counterMax (p.live[c.id] + n) :=
  Vector.getElem_set_self _

theorem TickPart.count_live_other (p : TickPart) {c : Counter} (n : Nat) {i : Fin 12} (h : i ≠ c.id) :
    (p.count c n).live[i] = p.live[i] :=
  Vector.getElem_set_ne (i := c.id) (j := i) c.id.isLt i.isLt (by omega)

/-- `q` is `p` after a performance tick (R200, R201). -/
structure TickPart.Ticked (p q : TickPart) : Prop where
  live : q.live = Vector.replicate 12 0
  latched : q.latched = p.live
  seq : q.seq = (p.seq + 1) % 65536
  overSet : ∀ i : Fin 12,
    q.overSet.getLsbD i = decide (p.thresholds[i] ≠ 0 ∧ p.thresholds[i] ≤ p.live[i])
  tickIn : ∀ l, q.tickIn l = true
  thresholdIn : q.overSet ≠ 0 → ∀ l, q.thresholdIn l = true

@[simp] theorem Conditions.view_addToViews (c : Conditions) (items : ItemSet) (l : Link) :
    (c.addToViews items).view l = c.view l ||| items := by
  cases l <;> rfl

theorem Conditions.addToViews_tickPart {c : Conditions} {items : ItemSet}
    (hthreshold : items.getLsbD Event.threshold.item = false)
    (htick : items.getLsbD Event.tick.item = false) : (c.addToViews items).tickPart = c.tickPart := by
  simp only [Conditions.tickPart, Conditions.view_addToViews, BitVec.getLsbD_or, hthreshold, htick,
    Bool.or_false]
  rfl

/-- An event other than the two enters the views as another item. -/
theorem Event.twoPow_getLsbD_other {e : Event} (h : e ≠ .threshold) (h' : e ≠ .tick) :
    (BitVec.twoPow 25 e.item).getLsbD Event.threshold.item = false ∧
      (BitVec.twoPow 25 e.item).getLsbD Event.tick.item = false := by
  cases e with
  | threshold => exact absurd rfl h
  | tick => exact absurd rfl h'
  | _ => exact ⟨by decide, by decide⟩

@[simp] theorem State.raise_tickPart (s : State) {e : Event} (h : e ≠ .threshold) (h' : e ≠ .tick) :
    (s.raise e).cond.tickPart = s.cond.tickPart :=
  have ⟨hthreshold, htick⟩ := Event.twoPow_getLsbD_other h h'
  Conditions.addToViews_tickPart hthreshold htick

@[simp] theorem State.raiseIf_tickPart (s : State) (b : Bool) {e : Event} (h : e ≠ .threshold)
    (h' : e ≠ .tick) : (s.raiseIf b e).cond.tickPart = s.cond.tickPart := by
  cases b
  · rfl
  · exact s.raise_tickPart h h'

@[simp] theorem Conditions.active_tickPart (c : Conditions) (x : CondSet) :
    { c with active := x }.tickPart = c.tickPart := by
  simp only [Conditions.tickPart, TickPart.mk.injEq, true_and]
  exact ⟨funext fun l => by cases l <;> rfl, funext fun l => by cases l <;> rfl⟩

/-- Conditions are items below the events, so a new one is neither THRESHOLD nor TICK. -/
@[simp] theorem State.settle_tickPart (s : State) : s.settle.cond.tickPart = s.cond.tickPart := by
  have hnew (x : CondSet) : (s.cond.addToViews (x.setWidth 25)).tickPart = s.cond.tickPart :=
    Conditions.addToViews_tickPart (by simp [Event.item]) (by simp [Event.item])
  exact (Conditions.active_tickPart _ _).trans (hnew _)

/-- In the state as in its tick part a count is of the live values alone. -/
theorem State.count_tickPart (s : State) (c : Counter) (n : Nat) :
    (s.count c n).cond.tickPart = s.cond.tickPart.count c n := rfl

/-- A tick adds TICK to the views, and THRESHOLD if the set is not empty. -/
theorem State.tick_eq (s : State) : s.tick = { s with
    cond := s.cond.tick.addToViews
      (if s.cond.over = 0 then BitVec.twoPow 25 23 else BitVec.twoPow 25 22 ||| BitVec.twoPow 25 23) } := by
  by_cases h : s.cond.over = 0
  · simp only [State.tick, State.raiseIf, h, ne_eq, not_true_eq_false, decide_false,
      Bool.false_eq_true, if_false, if_true, State.raise, Event.item]
  · simp only [State.tick, State.raiseIf, h, ne_eq, not_false_eq_true, decide_true, if_false, if_true,
      State.raise, Event.item, Conditions.addToViews, BitVec.or_assoc]

theorem State.tick_ticked (s : State) : s.cond.tickPart.Ticked s.tick.cond.tickPart := by
  rw [State.tick_eq]
  refine ⟨rfl, rfl, rfl, s.cond.over_getLsbD, fun l => ?_, fun hover l => ?_⟩
  · simp only [Conditions.tickPart, Conditions.view_addToViews]
    split <;> simp [Event.item]
  · have hover : s.cond.over ≠ 0 := hover
    simp only [Conditions.tickPart, Conditions.view_addToViews, if_neg hover]
    simp [Event.item]

/-! ## What the rest of an edge leaves alone -/

@[simp] theorem State.changeMode_tickPart (s : State) (m : Mode) :
    (s.changeMode m).cond.tickPart = s.cond.tickPart := by
  simp only [State.changeMode]
  split
  · rfl
  · split <;> simp

@[simp] theorem State.boundaryMode_tickPart (s : State) :
    s.boundaryMode.cond.tickPart = s.cond.tickPart := by
  unfold State.boundaryMode
  split
  · simp only [State.boundaryPending]; split <;> simp
  · simp only [State.boundaryOffAir]; split <;> simp
  · simp only [State.boundaryResume]; repeat' split
    all_goals simp
  · rfl

@[simp] theorem State.composition_tickPart (s : State) :
    s.composition.cond.tickPart = s.cond.tickPart := by
  have hcheck : s.leapCheck.cond.tickPart = s.cond.tickPart := by simp [State.leapCheck]
  have hprocess (t : State) (f : Nat) : (t.processSchedule f).cond.tickPart = t.cond.tickPart := by
    simp only [State.processSchedule]
    split
    · simp [State.scheduleChanged]
    · rfl
  simp [State.composition, hprocess, hcheck]

@[simp] theorem State.portsMoved_tickPart (s0 s : State) :
    (s0.portsMoved s).cond.tickPart = s.cond.tickPart := by
  simp [State.portsMoved, State.select]

/-! ## The pulses paired with an edge (R29, R50) -/

/-- From `p` to `q` only ids 5 to 7, the exits from QUALIFIED and the slewing seconds, have counted: of a
value within its range none goes down. -/
structure TickPart.PulsesCounted (p q : TickPart) : Prop where
  kept : q = { p with live := q.live }
  others : ∀ i : Fin 12, i.val < 5 ∨ 7 < i.val → q.live[i] = p.live[i]
  up : ∀ i : Fin 12, p.live[i] ≤ counterMax → p.live[i] ≤ q.live[i] ∧ q.live[i] ≤ counterMax

theorem TickPart.PulsesCounted.refl (p : TickPart) : p.PulsesCounted p :=
  ⟨rfl, fun _ _ => rfl, fun _ h => ⟨le_rfl, h⟩⟩

theorem TickPart.PulsesCounted.trans {p q r : TickPart} (h : p.PulsesCounted q) (h' : q.PulsesCounted r) :
    p.PulsesCounted r where
  kept := by rw [h'.kept, h.kept]
  others := fun i hi => (h'.others i hi).trans (h.others i hi)
  up := fun i hi =>
    have ⟨hle, hmax⟩ := h.up i hi
    have ⟨hle', hmax'⟩ := h'.up i hmax
    ⟨hle.trans hle', hmax'⟩

theorem TickPart.count_pulsesCounted (p : TickPart) {c : Counter} (n : Nat) (h : 5 ≤ c.id.val)
    (h' : c.id.val ≤ 7) : p.PulsesCounted (p.count c n) := by
  refine ⟨rfl, fun i hi => p.count_live_other n (by omega), fun i hi => ?_⟩
  by_cases hc : i = c.id
  · subst hc
    rw [p.count_live_self]
    omega
  · rw [p.count_live_other n hc]
    exact ⟨le_rfl, hi⟩

/-- From `s` to `t` only the counts that pulses make have changed what counting and ticks write. -/
def State.PulsesCounted (s t : State) : Prop := s.cond.tickPart.PulsesCounted t.cond.tickPart

theorem State.PulsesCounted.of_eq {s t : State} (h : t.cond.tickPart = s.cond.tickPart) :
    s.PulsesCounted t := by
  unfold State.PulsesCounted
  rw [h]
  exact .refl _

theorem State.correct_pulsesCounted (s : State) (p : Port) (o : Int) : s.PulsesCounted (s.correct p o) := by
  have hcond : (s.correct p o).cond = s.cond ∨ (s.correct p o).cond = (s.count .slewSeconds 1).cond := by
    simp only [State.correct]
    repeat' split
    all_goals simp
  rcases hcond with h | h
  · exact .of_eq (by rw [h])
  · unfold State.PulsesCounted
    rw [h]
    exact s.cond.tickPart.count_pulsesCounted (c := .slewSeconds) 1 (by decide) (by decide)

theorem State.completePulse_pulsesCounted (s : State) (p : Port) (u : OpenPulse) (o : Int) :
    s.PulsesCounted (s.completePulse p u o) := by
  have hmove (r : RefPort) : s.PulsesCounted (s.movePort p r) := by
    simp only [State.movePort]
    split
    · have hcount := s.cond.tickPart.count_pulsesCounted (c := refDisqualify p) 1
        (by cases p <;> decide) (by cases p <;> decide)
      simpa [State.PulsesCounted, State.count_tickPart] using hcount
    · exact .of_eq (by simp)
  simpa [State.PulsesCounted, State.completePulse] using hmove _

theorem State.correctOpen_pulsesCounted (s : State) (p : Port) : s.PulsesCounted (s.correctOpen p) :=
  foldl_keeps (P := s.PulsesCounted) (fun t _ h => h.trans (t.correct_pulsesCounted p _)) _ _ (.of_eq rfl)

theorem State.completeOpen_pulsesCounted (s : State) (p : Port) : s.PulsesCounted (s.completeOpen p) :=
  foldl_keeps (P := s.PulsesCounted) (fun t _ h => h.trans (t.completePulse_pulsesCounted p _ _)) _ _
    (.of_eq (by simp))

theorem State.slewOnEntry_pulsesCounted (s0 s : State) (known : Port → Bool) :
    s.PulsesCounted (s0.slewOnEntry s known) := by
  simp only [State.slewOnEntry]
  split
  · exact .of_eq rfl
  · split
    · exact s.correct_pulsesCounted _ _
    · exact .of_eq rfl

theorem State.pulsesAtEdge_pulsesCounted (s : State) : s.PulsesCounted (s.pulsesAtEdge .counted) := by
  let s1 := (s.correctOpen .p1).correctOpen .p2
  let s2 := s1.portsMoved ((s1.completeOpen .p1).completeOpen .p2)
  let s3 := s1.slewOnEntry s2 s.hasOpen
  have hcorrect : s.PulsesCounted s1 :=
    (s.correctOpen_pulsesCounted .p1).trans (State.correctOpen_pulsesCounted _ .p2)
  have hcomplete : s1.PulsesCounted s2 :=
    ((s1.completeOpen_pulsesCounted .p1).trans (State.completeOpen_pulsesCounted _ .p2)).trans
      (State.PulsesCounted.of_eq (State.portsMoved_tickPart _ _))
  have hslew : s2.PulsesCounted s3 := s1.slewOnEntry_pulsesCounted s2 _
  have hjudge : s3.PulsesCounted (s.pulsesAtEdge .counted) := by
    refine .of_eq ?_
    change (if s.hasOpen .p1 || s.hasOpen .p2 then s3.judgeAgreement else s3).cond.tickPart = _
    split <;> simp
  exact ((hcorrect.trans hcomplete).trans hslew).trans hjudge

theorem State.correctOpen_none {s : State} {p : Port} (h : (s.port p).openPulses = []) :
    s.correctOpen p = s := by
  rw [State.correctOpen, h, List.foldl_nil]

theorem State.completeOpen_none {s : State} {p : Port} (h : (s.port p).openPulses = []) :
    s.completeOpen p = s := by
  have hport : { s.port p with openPulses := [] } = s.port p := by rw [← h]
  rw [State.completeOpen, h, List.foldl_nil, hport]
  cases p <;> rfl

/-- With no pulse to pair with the edge nothing is counted. -/
theorem State.pulsesAtEdge_tickPart_none {s : State} (h1 : s.ref1.openPulses = [])
    (h2 : s.ref2.openPulses = []) :
    (s.pulsesAtEdge .counted).cond.tickPart = s.cond.tickPart := by
  have hopen : ∀ p, (s.port p).openPulses = [] := fun p => by cases p <;> assumption
  have hnone : s.hasOpen = fun _ => false := funext fun p => by simp [State.hasOpen, hopen p]
  have hcorrect : (s.correctOpen .p1).correctOpen .p2 = s := by
    rw [State.correctOpen_none (hopen .p1), State.correctOpen_none (hopen .p2)]
  have hcomplete : (s.completeOpen .p1).completeOpen .p2 = s := by
    rw [State.completeOpen_none (hopen .p1), State.completeOpen_none (hopen .p2)]
  have hslew (s0 t : State) : s0.slewOnEntry t (fun _ => false) = t := by
    unfold State.slewOnEntry
    split
    · rfl
    · exact if_neg (by simp)
  simp [State.pulsesAtEdge, hcorrect, hcomplete, hnone, hslew]

/-! ## The minute boundary (R127, R128, R198) -/

/-- A blank minute is keyed: TIME_CODE with no frame (R128). -/
def Keyer.blank (k : Keyer) : Bool := k.mode = .timeCode && k.current.isNone

theorem Keyer.blank_iff (k : Keyer) : k.blank = true ↔ k.mode = .timeCode ∧ k.current = none := by
  simp [Keyer.blank]

theorem Keyer.endFrame_current (k : Keyer) : k.endFrame.current = none := by
  unfold Keyer.endFrame
  split
  · assumption
  · rfl

theorem State.maintenanceDue_current (s : State) :
    s.maintenanceDue.key.current = s.key.current := by
  unfold State.maintenanceDue
  split <;> rfl

theorem State.changeMode_current {s : State} (m : Mode) (h : s.key.current = none) :
    (s.changeMode m).key.current = none := by
  simp only [State.changeMode]
  split
  · exact h
  · split <;> simp [Keyer.enter, State.abandonStep, h]

/-- No mode of a boundary begins with a frame: step 5 alone takes one. -/
theorem State.boundaryMode_current {s : State} (h : s.key.current = none) :
    s.boundaryMode.key.current = none := by
  unfold State.boundaryMode
  split
  · simp only [State.boundaryPending]
    split
    · exact State.changeMode_current _ h
    · exact h
  · simp only [State.boundaryOffAir]
    split
    · exact h
    · exact State.changeMode_current _ h
  · unfold State.boundaryResume
    split
    · exact h
    · split
      · exact State.changeMode_current _ h
      · exact h
  · exact h

/-- `p` with the blank minute counted, if one is keyed. -/
def TickPart.keyed (p : TickPart) (blank : Bool) : TickPart :=
  if blank then p.count .blankMinutes 1 else p

theorem State.takeFrame_tickPart {s : State} (h : s.key.current = none) :
    s.takeFrame.cond.tickPart = s.cond.tickPart.keyed s.takeFrame.key.blank := by
  simp only [State.takeFrame]
  by_cases hm : s.key.mode = .timeCode
  · cases hr : s.recordForNow with
    | some r => simp [hm, Keyer.blank, TickPart.keyed]
    | none => simp [hm, h, Keyer.blank, TickPart.keyed, State.count_tickPart]
  · simp [hm, Keyer.blank, TickPart.keyed]

theorem State.keyerBoundary_tickPart (s : State) :
    s.keyerBoundary.cond.tickPart = s.cond.tickPart.keyed s.keyerBoundary.key.blank := by
  let s2 := ({ s with key := s.key.endFrame } : State).maintenanceDue.boundaryMode
  have hcurrent : s2.key.current = none :=
    State.boundaryMode_current ((State.maintenanceDue_current _).trans s.key.endFrame_current)
  have htake : s2.takeFrame.cond.tickPart = s.cond.tickPart.keyed s2.takeFrame.key.blank := by
    rw [State.takeFrame_tickPart hcurrent]
    simp [s2]
  exact htake

/-- The minute number that TICK_PERIOD has to divide (R198). -/
def Timebase.tickMinute (t : Timebase) : Nat := if t.timeSet then minuteOfDay t.sec else t.freeMin

/-- The edge just made is a minute boundary at which TICK_PERIOD, `period`, makes a performance tick. -/
def Timebase.ticks (t : Timebase) (period : Nat) : Bool :=
  t.atBoundary && t.tickMinute % period = 0

theorem Timebase.ticks_iff (t : Timebase) (period : Nat) : t.ticks period = true ↔
    if t.timeSet then secondOfMinute t.sec = 0 ∧ minuteOfDay t.sec % period = 0
    else t.freeSec = 0 ∧ t.freeMin % period = 0 := by
  unfold Timebase.ticks Timebase.atBoundary Timebase.tickMinute
  split <;> simp

theorem Timebase.atBoundary_iff (t : Timebase) : t.atBoundary = true ↔
    if t.timeSet then secondOfMinute t.sec = 0 else t.freeSec = 0 := by
  unfold Timebase.atBoundary
  split <;> simp

/-- `q` is what a second edge leaves of `p`, if it `ticks` or not. -/
def TickPart.AtEdge (p q : TickPart) (ticks : Bool) : Prop :=
  if ticks then p.Ticked q else q = p

theorem State.minuteTick_atEdge {s : State} (h : s.tb.atBoundary = true) :
    s.cond.tickPart.AtEdge s.minuteTick.cond.tickPart (s.tb.ticks s.params.tickPeriod) := by
  have htick : s.minuteTick = if s.tb.tickMinute % s.params.tickPeriod = 0 then s.tick else s := rfl
  simp only [htick, Timebase.ticks, h, Bool.true_and, TickPart.AtEdge, decide_eq_true_eq]
  split
  · exact s.tick_ticked
  · rfl

theorem State.minuteBoundary_atEdge {s : State} (h : s.tb.atBoundary = true) :
    (s.cond.tickPart.keyed s.minuteBoundary.key.blank).AtEdge s.minuteBoundary.cond.tickPart
      (s.tb.ticks s.params.tickPeriod) := by
  have hkey : s.minuteBoundary.key = s.keyerBoundary.key := by simp [State.minuteBoundary]
  have hboundary : s.keyerBoundary.tb.atBoundary = s.tb.atBoundary := by simp [Timebase.atBoundary]
  have hminute : s.keyerBoundary.tb.tickMinute = s.tb.tickMinute := by simp [Timebase.tickMinute]
  have hticks : s.keyerBoundary.tb.ticks s.params.tickPeriod = s.tb.ticks s.params.tickPeriod := by
    rw [Timebase.ticks, hboundary, hminute, Timebase.ticks]
  have hparams : s.keyerBoundary.params = s.params := by simp
  have htick := State.minuteTick_atEdge (hboundary.trans h)
  rwa [State.keyerBoundary_tickPart, hparams, hticks, ← hkey] at htick

/-! ## The second edge (log 6) -/

/-- What follows the pulses and the levels in an edge: the boundary, the second's mark, the composition. -/
def State.edgeFinished (s : State) : State :=
  let s2 := (if s.tb.atBoundary then s.minuteBoundary else s).beginSignal s.tb.atBoundary
  if s2.tb.atComposition then s2.composition else s2

theorem State.exec_secondEdge {s : State} (hp : s.por = false) (hw : s.tb.stepWaiting = false) :
    exec .secondEdge s = .next s.edgeBegun.edgeFinished.settle := by
  have hcounted : exec .secondEdge s =
      .next (if s.por then s
        else if (s.waitUntil s.tb.due).tb.stepWaiting then s.waitUntil s.tb.due
        else ((s.waitUntil s.tb.due).makeEdge .counted).settle) := rfl
  rw [hcounted, if_neg (by simp [hp]), if_neg (by simp [hw])]
  rfl

theorem State.edgeFinished_time (s : State) :
    s.edgeFinished.tb.timeSet = s.tb.timeSet ∧ s.edgeFinished.tb.sec = s.tb.sec ∧
      s.edgeFinished.tb.freeSec = s.tb.freeSec ∧ s.edgeFinished.tb.freeMin = s.tb.freeMin := by
  simp only [State.edgeFinished]
  repeat' split
  all_goals simp

/-- The time that an edge begins says at its end still whether it is a boundary and whether it ticks. -/
theorem State.edgeFinished_ticks (s : State) (period : Nat) :
    s.edgeFinished.tb.atBoundary = s.tb.atBoundary ∧
      s.edgeFinished.tb.ticks period = s.tb.ticks period := by
  obtain ⟨hset, hsec, hfreeSec, hfreeMin⟩ := s.edgeFinished_time
  have hboundary : s.edgeFinished.tb.atBoundary = s.tb.atBoundary := by
    simp [Timebase.atBoundary, hset, hsec, hfreeSec]
  have hminute : s.edgeFinished.tb.tickMinute = s.tb.tickMinute := by
    simp [Timebase.tickMinute, hset, hsec, hfreeMin]
  exact ⟨hboundary, by rw [Timebase.ticks, hboundary, hminute, Timebase.ticks]⟩

@[simp] theorem State.composition_blank (s : State) : s.composition.key.blank = s.key.blank := by
  have hprocess (t : State) (f : Nat) : (t.processSchedule f).key.blank = t.key.blank := by
    have hkey : (t.processSchedule f).key =
        if t.sched.opensAt f then { t.key with windowReport := true } else t.key := by
      simp only [State.processSchedule]
      split <;> simp
    rw [hkey]
    split <;> rfl
  simp [State.composition, hprocess]

@[simp] theorem State.beginSignal_blank (s : State) (b : Bool) :
    (s.beginSignal b).key.blank = s.key.blank := rfl

/-- After the boundary an edge counts nothing, ticks no more and keeps the frame. -/
theorem State.edgeFinished_boundary (s : State) :
    let t := if s.tb.atBoundary then s.minuteBoundary else s
    s.edgeFinished.cond.tickPart = t.cond.tickPart ∧ s.edgeFinished.key.blank = t.key.blank := by
  simp only [State.edgeFinished]
  generalize (if s.tb.atBoundary then s.minuteBoundary else s) = t
  split <;> simp

theorem State.edgeFinished_atEdge (s : State) :
    (s.cond.tickPart.keyed (s.tb.atBoundary && s.edgeFinished.key.blank)).AtEdge
      s.edgeFinished.cond.tickPart (s.tb.ticks s.params.tickPeriod) := by
  obtain ⟨hpart, hblank⟩ := s.edgeFinished_boundary
  rw [hpart, hblank]
  cases hb : s.tb.atBoundary with
  | true => simpa using State.minuteBoundary_atEdge hb
  | false => simp [Timebase.ticks, hb, TickPart.AtEdge, TickPart.keyed]

/-! ## What an edge counts, before any tick -/

theorem State.edgeBegun_params (s : State) : s.edgeBegun.params = s.params := by
  simp [State.edgeBegun]

theorem State.edgeBegun_pulsesCounted (s : State) : s.PulsesCounted s.edgeBegun := by
  have hbegun : s.PulsesCounted ((s.waitUntil s.tb.due).beginEdge .counted) := .of_eq (by simp)
  exact (hbegun.trans (State.pulsesAtEdge_pulsesCounted _)).trans
    (State.PulsesCounted.of_eq (by simp [State.edgeBegun]))

theorem State.edgeBegun_tickPart_none {s : State} (h1 : s.ref1.openPulses = [])
    (h2 : s.ref2.openPulses = []) : s.edgeBegun.cond.tickPart = s.cond.tickPart := by
  have hnone := State.pulsesAtEdge_tickPart_none
    (s := (s.waitUntil s.tb.due).beginEdge .counted) h1 h2
  simpa [State.edgeBegun] using hnone

/-- What counting and ticks act on, with all that the edge counts: by its pulses, and by the keyer, at a
boundary. -/
def State.countedAtEdge (s : State) : TickPart :=
  s.edgeBegun.cond.tickPart.keyed (s.edgeBegun.tb.atBoundary && s.edgeBegun.edgeFinished.key.blank)

theorem State.countedAtEdge_kept (s : State) :
    s.countedAtEdge = { s.cond.tickPart with live := s.countedAtEdge.live } := by
  have hkeyed : s.countedAtEdge = { s.edgeBegun.cond.tickPart with live := s.countedAtEdge.live } := by
    unfold State.countedAtEdge TickPart.keyed
    split <;> rfl
  have hpulses : s.edgeBegun.cond.tickPart =
      { s.cond.tickPart with live := s.edgeBegun.cond.tickPart.live } := s.edgeBegun_pulsesCounted.kept
  rw [hkeyed, hpulses]

/-- The keyer counts blank minutes alone. -/
theorem State.countedAtEdge_live (s : State) {i : Fin 12} (h : i ≠ 4) :
    s.countedAtEdge.live[i] = s.edgeBegun.cond.live[i] := by
  unfold State.countedAtEdge TickPart.keyed
  split
  · exact TickPart.count_live_other _ 1 h
  · rfl

theorem State.countedAtEdge_others (s : State) (i : Fin 12) (h : i.val < 4 ∨ 7 < i.val) :
    s.countedAtEdge.live[i] = s.cond.live[i] :=
  (s.countedAtEdge_live (by omega)).trans (s.edgeBegun_pulsesCounted.others i (by omega))

theorem State.countedAtEdge_blank (s : State) : s.countedAtEdge.live[4] =
    if s.edgeBegun.tb.atBoundary && s.edgeBegun.edgeFinished.key.blank then
      min counterMax (s.cond.live[4] + 1) else s.cond.live[4] := by
  have hpulses : s.edgeBegun.cond.live[4] = s.cond.live[4] :=
    s.edgeBegun_pulsesCounted.others 4 (by decide)
  rw [← hpulses]
  unfold State.countedAtEdge TickPart.keyed
  split
  · exact TickPart.count_live_self _ .blankMinutes 1
  · rfl

theorem State.countedAtEdge_pulses (s : State) (i : Fin 12) (h : i.val = 5 ∨ i.val = 6 ∨ i.val = 7) :
    s.countedAtEdge.live[i] = s.edgeBegun.cond.live[i] ∧
      (s.cond.live[i] ≤ counterMax → s.cond.live[i] ≤ s.countedAtEdge.live[i]) ∧
      (s.ref1.openPulses = [] → s.ref2.openPulses = [] →
        s.countedAtEdge.live[i] = s.cond.live[i]) := by
  have hlive : s.countedAtEdge.live[i] = s.edgeBegun.cond.live[i] := s.countedAtEdge_live (by omega)
  refine ⟨hlive, fun hmax => hlive ▸ (s.edgeBegun_pulsesCounted.up i hmax).1, fun h1 h2 => ?_⟩
  have hnone : s.edgeBegun.cond.live = s.cond.live :=
    congrArg TickPart.live (State.edgeBegun_tickPart_none h1 h2)
  rw [hlive, hnone]

/-- An edge ticks on what it has counted, or leaves it at that. -/
theorem State.secondEdge_atEdge (s : State) :
    s.countedAtEdge.AtEdge s.edgeBegun.edgeFinished.settle.cond.tickPart
      (s.edgeBegun.edgeFinished.tb.ticks s.params.tickPeriod) := by
  obtain ⟨-, hticks⟩ := s.edgeBegun.edgeFinished_ticks s.params.tickPeriod
  rw [State.settle_tickPart, hticks, ← s.edgeBegun_params]
  exact s.edgeBegun.edgeFinished_atEdge

end Sys2Proof.Machine

/-! The conditions block's requests (R191..R196, R202, R203): what a set of items names by its bits, when the
lines are asserted, and what each request of masks, thresholds and counters answers. -/

namespace Sys2Proof.Machine

/-! ## Sets of items by their bits (R190, R209) -/

theorem itemSet_ne_zero_iff {w : Nat} (set : BitVec w) : set ≠ 0 ↔ ∃ i, set.getLsbD i = true := by
  constructor
  · intro hne
    by_contra hnone
    exact hne (BitVec.eq_of_getLsbD_eq fun i _ => by simpa using fun hi => hnone ⟨i, hi⟩)
  · rintro ⟨i, hi⟩ rfl
    simp at hi

/-- A set is at or above 2^k exactly if it names an item k or higher. -/
theorem two_pow_le_toNat_iff {w k : Nat} (set : BitVec w) :
    2 ^ k ≤ set.toNat ↔ ∃ i, k ≤ i ∧ set.getLsbD i = true :=
  ⟨Nat.exists_ge_and_testBit_of_ge_two_pow, fun ⟨_, hk, hi⟩ =>
    (Nat.pow_le_pow_right two_pos hk).trans (Nat.ge_two_pow_of_testBit hi)⟩

theorem toNat_lt_two_pow {w k : Nat} {set : BitVec w} (h : ∀ i, k ≤ i → set.getLsbD i = false) :
    set.toNat < 2 ^ k := by
  rw [← not_le, two_pow_le_toNat_iff]
  rintro ⟨i, hk, hi⟩
  simp [h i hk] at hi

/-! ## The lines (R194, R196) -/

theorem State.alertLine_iff {s : State} (l : Link) (hp : s.por = false) : s.alertLine l = true ↔
    ∃ i, (s.cond.view l).getLsbD i = true ∧ (s.cond.mask l).getLsbD i = false := by
  have hline : s.alertLine l = true ↔ s.cond.view l &&& ~~~s.cond.mask l ≠ 0 := by
    simp [State.alertLine, hp]
  rw [hline, itemSet_ne_zero_iff]
  refine exists_congr fun i => ?_
  have hlow : (s.cond.view l).getLsbD i = true → i < 25 := BitVec.lt_of_getLsbD
  simp only [BitVec.getLsbD_and, BitVec.getLsbD_not, Bool.and_eq_true, Bool.not_eq_true',
    decide_eq_true_eq]
  tauto

theorem State.faultLine_iff {s : State} (hp : s.por = false) : s.faultLine = true ↔
    ∃ i, s.cond.active.getLsbD i = true ∧ s.cond.faultMask.getLsbD i = true := by
  have hline : s.faultLine = true ↔ s.cond.active &&& s.cond.faultMask ≠ 0 := by
    simp [State.faultLine, hp]
  rw [hline, itemSet_ne_zero_iff]
  simp only [BitVec.getLsbD_and, Bool.and_eq_true]

/-! ## The masks (R193, R195) -/

section
variable {l : Link} {set : BitVec 32} {s : State}

theorem actSetAlertMask_badArgument (h : ∃ i, 25 ≤ i ∧ set.getLsbD i = true) :
    actSetAlertMask l set s = .plain .badArgument s :=
  if_pos ((two_pow_le_toNat_iff set).mpr h)

theorem actSetAlertMask_ok (h : ∀ i, 25 ≤ i → set.getLsbD i = false) :
    actSetAlertMask l set s =
      .answered .ok (encSet set) { s with cond := s.cond.setMask l (set.setWidth 25) } :=
  if_neg (toNat_lt_two_pow h).not_ge

theorem actSetFaultMask_badArgument (h : ∃ i, 13 ≤ i ∧ set.getLsbD i = true) :
    actSetFaultMask set s = .plain .badArgument s :=
  if_pos ((two_pow_le_toNat_iff set).mpr h)

theorem actSetFaultMask_ok (h : ∀ i, 13 ≤ i → set.getLsbD i = false) :
    actSetFaultMask set s =
      .answered .ok (encSet set) { s with cond := { s.cond with faultMask := set.setWidth 13 } } :=
  if_neg (toNat_lt_two_pow h).not_ge

end

/-! ## Thresholds and counters (R197, R202, R203) -/

section
variable {id part : Octet} {value : BitVec 32} {s : State}

theorem actSetThreshold_badArgument (h : 11 < id.toNat) :
    actSetThreshold id value s = .plain .badArgument s :=
  if_pos h

theorem actSetThreshold_ok {i : Fin 12} (h : id.toNat = i) :
    actSetThreshold id value s = .answered .ok (id :: octetsBE 4 value.toNat)
      { s with cond := { s.cond with thresholds := s.cond.thresholds.set i value.toNat } } := by
  have hset : s.cond.thresholds.setIfInBounds id.toNat value.toNat =
      s.cond.thresholds.set i value.toNat := by
    rw [h]
    ext
    simp [Vector.getElem_setIfInBounds, Vector.getElem_set]
  rw [actSetThreshold, if_neg (by omega), hset]

theorem actReadCounters_badArgument (h : 2 < part.toNat) :
    actReadCounters part s = .plain .badArgument s := by
  obtain ⟨n, hn⟩ : ∃ n, part.toNat = n + 3 := ⟨part.toNat - 3, by omega⟩
  rw [actReadCounters, hn]
  rfl

end

theorem State.count_live (s : State) (c : Counter) (n : Nat) :
    (s.count c n).cond.live[c.id] = min counterMax (s.cond.live[c.id] + n) :=
  s.cond.tickPart.count_live_self c n

theorem State.count_live_other (s : State) {c : Counter} (n : Nat) {i : Fin 12} (h : i ≠ c.id) :
    (s.count c n).cond.live[i] = s.cond.live[i] :=
  s.cond.tickPart.count_live_other n h

end Sys2Proof.Machine

namespace Sys2Proof

open Sys2Proof.Machine

/-- Settles O13: the report and the new view are read off the state on the executor's turn, which no part
of them reads. -/
theorem readStatusReplacesItsView : Obligations.ReadStatusReplacesItsView := by
  intro l tag s ht
  exact State.answers_of (act := actReadStatus l) ht rfl (fun _ => rfl) rfl

/-- Settles O14: each mask request by whether its set names an item too high, each line by the bits of the
sets that drive it. -/
theorem masksGovernTheLines : Obligations.MasksGovernTheLines := by
  refine ⟨fun l tag set s ht => ⟨fun hbad => ?alertBad, fun hok => ?alertOk⟩,
    fun l tag set s ht => ⟨fun hbad => ?faultBad, fun hok => ?faultOk⟩,
    fun s l hp => State.alertLine_iff l hp, fun s hp => State.faultLine_iff hp⟩
  case alertBad => exact State.answers_of ht rfl (fun _ => rfl) (actSetAlertMask_badArgument hbad)
  case alertOk => exact State.answers_of ht rfl (fun _ => rfl) (actSetAlertMask_ok hok)
  case faultBad => exact State.answers_of ht rfl (fun _ => rfl) (actSetFaultMask_badArgument hbad)
  case faultOk => exact State.answers_of ht rfl (fun _ => rfl) (actSetFaultMask_ok hok)

/-- Settles O16: SET_THRESHOLD by its id, READ_COUNTERS by its part, and the saturating count. -/
theorem countersAndThresholds : Obligations.CountersAndThresholds := by
  refine ⟨fun l tag id value s ht => ⟨fun hbad => ?badId, fun i hi => ?ok⟩,
    fun l tag part s ht => ⟨?latched, ?live, ?thresholds, fun hbad => ?badPart⟩,
    fun s c n _ => ⟨?saturates, fun i hi => s.count_live_other n hi⟩⟩
  case badId => exact State.answers_of ht rfl (fun _ => rfl) (actSetThreshold_badArgument hbad)
  case ok => exact State.answers_of ht rfl (fun _ => rfl) (actSetThreshold_ok hi)
  case latched => rintro rfl; exact State.answers_of ht rfl (fun _ => rfl) rfl
  case live => rintro rfl; exact State.answers_of ht rfl (fun _ => rfl) rfl
  case thresholds => rintro rfl; exact State.answers_of ht rfl (fun _ => rfl) rfl
  case badPart => exact State.answers_of ht rfl (fun _ => rfl) (actReadCounters_badArgument hbad)
  case saturates =>
    rw [State.count_live]
    exact min_def' ..

/-- Settles O15: TICK_NOW is the tick alone; a second edge is its pulses, the keyer's boundary and then the
tick, and everything else in it leaves alone what they write. -/
theorem tickNowLatchesTheCounters : Obligations.TickNowLatchesTheCounters := by
  refine ⟨fun l tag s ht => ?tickNow, fun s hp hw => ?edge⟩
  case tickNow =>
    refine ⟨s.cond.over, (s.cond.seq + 1) % 65536, s.cond.over_getLsbD, by split <;> omega,
      State.answers_of ht rfl (fun _ => rfl) ?_⟩
    rw [actTickNow, State.tick_eq]
    rfl
  case edge =>
    refine ⟨_, State.exec_secondEdge hp hw, ?_⟩
    intro tick blank counted
    let t := s.edgeBegun.edgeFinished.settle
    have hticks : tick ↔ t.tb.ticks s.params.tickPeriod = true := (t.tb.ticks_iff _).symm
    have hblank : blank ↔ (s.edgeBegun.tb.atBoundary && t.key.blank) = true := by
      have hboundary : t.tb.atBoundary = s.edgeBegun.tb.atBoundary :=
        (s.edgeBegun.edgeFinished_ticks s.params.tickPeriod).1
      rw [← hboundary, Bool.and_eq_true, t.tb.atBoundary_iff, t.key.blank_iff]
    have hcounted : counted s.countedAtEdge.live :=
      ⟨s.countedAtEdge_others, s.countedAtEdge_blank.trans (if_congr hblank.symm rfl rfl),
        s.countedAtEdge_pulses⟩
    have hkept := s.countedAtEdge_kept
    have hedge : s.countedAtEdge.AtEdge t.cond.tickPart (t.tb.ticks s.params.tickPeriod) :=
      s.secondEdge_atEdge
    refine ⟨fun htick => ?ticks, fun hno => ?between⟩
    case ticks =>
      have hq : s.countedAtEdge.Ticked t.cond.tickPart := by
        rwa [TickPart.AtEdge, if_pos (hticks.mp htick)] at hedge
      have hlatched : t.cond.latched = s.countedAtEdge.live := hq.latched
      have hseq : s.countedAtEdge.seq = s.cond.seq := congrArg TickPart.seq hkept
      have hthresholds : s.countedAtEdge.thresholds = s.cond.thresholds :=
        congrArg TickPart.thresholds hkept
      refine ⟨hq.live, hseq ▸ hq.seq, hlatched ▸ hcounted, fun i => ?_, hq.tickIn .a, hq.tickIn .b,
        fun hover => ⟨hq.thresholdIn hover .a, hq.thresholdIn hover .b⟩⟩
      rw [hlatched, ← hthresholds]
      exact hq.overSet i
    case between =>
      have hq : t.cond.tickPart = s.countedAtEdge := by
        rwa [TickPart.AtEdge, if_neg (mt hticks.mpr hno)] at hedge
      have hq' := hq.trans hkept
      have hlive : t.cond.live = s.countedAtEdge.live := congrArg TickPart.live hq
      exact ⟨congrArg (fun p : TickPart => (p.latched, p.seq, p.overSet)) hq', hlive ▸ hcounted,
        congrArg (fun p : TickPart => p.tickIn .a) hq', congrArg (fun p : TickPart => p.tickIn .b) hq'⟩

end Sys2Proof

/-! The executor's choice and turn (R212): the link served next when neither link, one or both have a
WAITING entry, the request that it is served with, and what serving a link makes of the turn. -/

namespace Sys2Proof

/-! ## A link and the other -/

theorem Link.ne_other (l : Link) : l ≠ l.other := by
  cases l <;> decide

/-- What holds of a link and of the other holds of both. -/
theorem Link.forall_of_other {p : Link → Prop} (l : Link) (h : p l) (ho : p l.other) : ∀ k, p k := by
  intro k
  cases l <;> cases k <;> assumption

end Sys2Proof

namespace Sys2Proof.Machine

/-! ## The link served next (R212) -/

section
variable {s : State}

theorem State.nextLink_none (ha : s.linkA.oldestWaiting = none) (hb : s.linkB.oldestWaiting = none) :
    s.nextLink = none := by
  simp only [State.nextLink, ha, hb]

/-- The only link with a WAITING entry is served, whatever the turn. -/
theorem State.nextLink_one {l : Link} {q : Request} (h : (s.link l).oldestWaiting = some q)
    (ho : (s.link l.other).oldestWaiting = none) : s.nextLink = some l := by
  cases l with
  | a =>
    have ha : s.linkA.oldestWaiting = some q := h
    have hb : s.linkB.oldestWaiting = none := ho
    simp only [State.nextLink, ha, hb]
  | b =>
    have ha : s.linkA.oldestWaiting = none := ho
    have hb : s.linkB.oldestWaiting = some q := h
    simp only [State.nextLink, ha, hb]

/-- Between two links that wait, the turn alone decides. -/
theorem State.nextLink_both (h : ∀ l, (s.link l).oldestWaiting ≠ none) :
    s.nextLink =
      some (if s.exe.count < s.params.weight s.exe.turn then s.exe.turn else s.exe.turn.other) := by
  obtain ⟨q, ha⟩ : ∃ q, s.linkA.oldestWaiting = some q := Option.ne_none_iff_exists'.mp (h .a)
  obtain ⟨r, hb⟩ : ∃ r, s.linkB.oldestWaiting = some r := Option.ne_none_iff_exists'.mp (h .b)
  simp only [State.nextLink, ha, hb]

/-! ## The request chosen (R212) -/

theorem State.choice_none (h : s.nextLink = none) : s.choice = none := by
  rw [State.choice, h]

/-- Within the link served next, the oldest WAITING entry is taken. -/
theorem State.choice_some {l : Link} {q : Request} (h : s.nextLink = some l)
    (hq : (s.link l).oldestWaiting = some q) : s.choice = some (l, q) := by
  simp only [State.choice, h, hq, Option.map_some]

end

/-! ## The turn (R212) -/

theorem Executor.serve_turn (x : Executor) : x.serve x.turn = { x with count := x.count + 1 } :=
  if_pos rfl

theorem Executor.serve_other (x : Executor) :
    x.serve x.turn.other = { x with turn := x.turn.other, count := 1 } :=
  if_neg x.turn.ne_other

end Sys2Proof.Machine

namespace Sys2Proof

open Sys2Proof.Machine

/-- Settles O10: the choice by the links that wait, and for both by the turn's count against its weight;
the turn by whether the link served is the one it names. -/
theorem executorAlternatesByWeight : Obligations.ExecutorAlternatesByWeight := by
  refine ⟨fun s ha hb => ?noneWaits, fun s l q h ho => ?oneWaits, fun s q r hq hr => ?bothWait,
    fun x => ⟨x.serve_turn, x.serve_other⟩⟩
  case noneWaits => exact State.choice_none (State.nextLink_none ha hb)
  case oneWaits => exact State.choice_some (State.nextLink_one h ho) h
  case bothWait =>
    have hwait : ∀ l, (s.link l).oldestWaiting ≠ none :=
      Link.forall_of_other s.exe.turn (by simp [hq]) (by simp [hr])
    have hnext := State.nextLink_both hwait
    split
    case isTrue hlt =>
      rw [if_pos hlt] at hnext
      exact State.choice_some hnext hq
    case isFalse hge =>
      rw [if_neg hge] at hnext
      exact State.choice_some hnext hr

end Sys2Proof

/-! What every command keeps. A request command changes a block only by what its owning block does
(R213); a property of the blocks that the links, the executor and the conditions do not enter is kept by
every command if each owning block and each event keeps it. -/

namespace Sys2Proof.Machine

/-! ## The state that an owning block leaves (R213) -/

/-- The state that the owning block of a request leaves. -/
def Acted.state : Acted → State
  | .answered _ _ s => s
  | .relayed s => s

@[simp] theorem Acted.state_answered (r : Result) (data : List Octet) (s : State) :
    (Acted.answered r data s).state = s := rfl

@[simp] theorem Acted.state_plain (r : Result) (s : State) : (Acted.plain r s).state = s := rfl

@[simp] theorem Acted.state_relayed (s : State) : (Acted.relayed s).state = s := rfl

/-- `t` agrees with `s` in everything but the links, the executor and the conditions. -/
def State.SameBlocks (s t : State) : Prop :=
  t = { s with linkA := t.linkA, linkB := t.linkB, exe := t.exe, cond := t.cond }

theorem State.SameBlocks.refl (s : State) : s.SameBlocks s := rfl

theorem State.SameBlocks.trans {s t u : State} (h : s.SameBlocks t) (g : t.SameBlocks u) :
    s.SameBlocks u := by
  unfold State.SameBlocks at h g ⊢
  rw [g, h]

theorem State.SameBlocks.of_frame {s t : State}
    (h : (t.por, t.txReady, t.monIn, t.freqFrom, t.now, t.params, t.tb, t.ref1, t.ref2, t.sel) =
      (s.por, s.txReady, s.monIn, s.freqFrom, s.now, s.params, s.tb, s.ref1, s.ref2, s.sel))
    (g : (t.synth, t.sched, t.comp, t.key, t.bus, t.mon, t.pending, t.freeCount) =
      (s.synth, s.sched, s.comp, s.key, s.bus, s.mon, s.pending, s.freeCount)) : s.SameBlocks t := by
  simp only [Prod.mk.injEq] at h g
  apply State.ext <;> simp [h, g]

theorem State.ensureTaken_sameBlocks (s : State) (l : Link) (q : Request) :
    s.SameBlocks (s.ensureTaken l q) := State.SameBlocks.of_frame (by simp) (by simp)

theorem Acted.finish_sameBlocks (x : Acted) (l : Link) (tag : Tag) (code : Octet) :
    x.state.SameBlocks (x.finish l tag code) := by
  cases x <;> exact State.SameBlocks.of_frame (by simp [Acted.finish]) (by simp [Acted.finish])

theorem State.settle_sameBlocks (s : State) : s.SameBlocks s.settle :=
  State.SameBlocks.of_frame (by simp) (by simp)

/-- Executing a request leaves the blocks as they are, or as its owning block leaves them. -/
theorem State.request_cases (s : State) (l : Link) (q : Request) (act : State → Acted) :
    s.SameBlocks (s.request l q act) ∨
      ∃ x, s.SameBlocks x ∧ s.por = false ∧ (act x).state.SameBlocks (s.request l q act) := by
  unfold State.request
  split
  case isTrue => exact .inl (.refl s)
  case isFalse hp =>
    simp only
    split
    case isTrue =>
      refine .inr ⟨_, ?_, by simpa using hp,
        ((act _).finish_sameBlocks l q.tag q.code).trans (State.settle_sameBlocks _)⟩
      exact (s.ensureTaken_sameBlocks l q).trans rfl
    case isFalse => exact .inl (s.ensureTaken_sameBlocks l q)

/-- What the owning block keeps, executing a request keeps. -/
theorem State.request_keeps {P : State → Prop} (hP : ∀ s t, s.SameBlocks t → P s → P t)
    {act : State → Acted} (ha : ∀ x, P x → P (act x).state) {s : State} (h : P s) (l : Link)
    (q : Request) : P (s.request l q act) := by
  obtain hs | ⟨x, hx, -, ht⟩ := s.request_cases l q act
  · exact hP _ _ hs h
  · exact hP _ _ ht (ha x (hP _ _ hx h))

end Sys2Proof.Machine

namespace Sys2Proof

open Sys2Proof.Machine

/-! ## The meaning of a request command (R215) -/

/-- What the owning block of a request command does; an event has none. -/
def Instr.act : Instr → State → Acted
  | .readStatus l _ => actReadStatus l
  | .setAlertMask l _ set => actSetAlertMask l set
  | .setFaultMask _ _ set => actSetFaultMask set
  | .readCounters _ _ part => actReadCounters part
  | .tickNow _ _ => actTickNow
  | .setThreshold _ _ id value => actSetThreshold id value
  | .readTime _ _ => actReadTime
  | .stepTime _ _ day second => actStepTime day second
  | .selectReference _ _ choice => actSelectReference choice
  | .setRefEnable _ _ port setting => actSetRefEnable port setting
  | .setSelectMode _ _ mode => actSetSelectMode mode
  | .readReferences _ _ => actReadReferences
  | .setSynth _ _ n k p b => actSetSynth n k p b
  | .synthOn _ _ => actSynthOn
  | .synthOff _ _ => actSynthOff
  | .readSynth _ _ => actReadSynth
  | .setMode _ _ mode => actSetMode mode
  | .killCarrier _ _ => actKillCarrier
  | .setHold _ _ setting => actSetHold setting
  | .maintenance _ _ endDay endMinute => actMaintenance endDay endMinute
  | .readKeyer _ _ part => actReadKeyer part
  | .postChange l _ kind day minute zone lead => actPostChange l kind day minute zone lead
  | .withdrawChange l _ number => actWithdrawChange l number
  | .readSchedule _ _ position => actReadSchedule position
  | .readRetired _ _ position => actReadRetired position
  | .setZone _ _ index offset => actSetZone index offset
  | .selectZone _ _ index => actSelectZone index
  | .writeNotice _ _ slot text => actWriteNotice slot text
  | .selectNotice _ _ slot => actSelectNotice slot
  | .readNotice _ _ part => actReadNotice part
  | .readMonitor _ _ part => actReadMonitor part
  | .injectMonitorError _ _ => actInjectMonitorError
  | .moduleRead l tag address register => actModuleRead l tag address register
  | .moduleWrite l tag address register value => actModuleWrite l tag address register value
  | .readModules _ _ part => actReadModules part
  | .setScan _ _ first last min => actSetScan first last min
  | .setParam _ _ id value => actSetParam id value
  | .readParam _ _ id => actReadParam id
  | .restart _ _ => actRestart
  | .powerOnResetAssert _ | .powerOnReset _ | .restartNFall _ | .awaitedRestart _ | .linkBreak _ _
  | .linkFrameReceived _ _ _ | .linkGapExpiry _ | .linkFramingError _ _ | .responseSent _ _
  | .secondEdge | .markIntervalEnd | .freqInAbsent _ _ | .freqInReturn | .refPulse _ _
  | .phaseStepHoldExpiry | .refMessage _ _ _ | .refMsgGapExpiry _ | .refMsgFramingError _ _
  | .pulseWatchExpiry _ | .comparisonPeriodEnd _ _ | .txReadyChange _ _ | .attemptSent _
  | .moduleAnswer _ _ | .answerWindowExpiry | .monInRise _ | .monInFall _ | .markQuietClose
  | .markLongClose | .frameTimerExpiry | .lengthOctetInvalid _ _ _ => .plain .ok

/-- A request command executes its request by its owning block. -/
theorem Instr.exec_request {c : Instr} {l : Link} {q : Request} (h : c.asRequest = some (l, q))
    (s : State) : exec c s = .next (s.request l q c.act) := by
  cases c <;> cases h <;> rfl

end Sys2Proof

namespace Sys2Proof.Machine

/-- A property of the blocks that the owning block of a request command keeps, the command keeps. -/
theorem exec_request_keeps {P : State → Prop} (hP : ∀ s t, s.SameBlocks t → P s → P t) {c : Instr}
    {s t : State} (hx : exec c s = .next t) (hc : c.asRequest.isSome = true) (h : P s)
    (ha : ∀ x, P x → P (c.act x).state) : P t := by
  obtain ⟨⟨l, q⟩, hlq⟩ := Option.isSome_iff_exists.mp hc
  rw [Instr.exec_request hlq] at hx
  cases hx
  exact State.request_keeps hP ha h l q

/-- A property that does not look at the queue is kept by a step if every command keeps it. -/
theorem step_keeps {P : State → Prop} (hq : ∀ s rest, P s → P { s with pending := rest })
    (hx : ∀ c s t, P s → exec c s = .next t → P t) {s t : State} (h : P s) (hs : step s = .next t) :
    P t := by
  unfold step at hs
  split at hs
  case h_1 => cases hs; exact h
  case h_2 c rest _ => exact hx c _ t (hq s rest h) hs

end Sys2Proof.Machine

/-! Which blocks each command can change. -/

namespace Sys2Proof

open Sys2Proof.Machine

/-- The blocks of the part beside its links, executor and conditions. -/
inductive Block where
  | params
  | tb
  | refs
  | sel
  | synth
  | sched
  | comp
  | key
  | bus
  | mon
  deriving DecidableEq

/-- The blocks that a second edge can change. -/
def Block.ofEdge : List Block := [.tb, .refs, .sel, .sched, .comp, .key, .mon]

/-- Every block. -/
def Block.all : List Block := [.params, .tb, .refs, .sel, .synth, .sched, .comp, .key, .bus, .mon]

/-- The blocks that a command can change. -/
def Instr.writes : Instr → List Block
  | .powerOnReset _ | .restartNFall _ | .awaitedRestart _ | .linkBreak _ _ | .responseSent _ _ =>
    Block.all
  | .secondEdge | .phaseStepHoldExpiry | .refPulse _ _ => Block.ofEdge
  | .stepTime _ _ _ _ => [.tb]
  | .freqInAbsent _ _ | .freqInReturn => [.tb, .synth]
  | .selectReference _ _ _ | .setSelectMode _ _ _ => [.sel, .tb]
  | .setRefEnable _ _ _ _ | .pulseWatchExpiry _ => [.refs, .sel, .tb]
  | .refMessage _ _ _ | .refMsgGapExpiry _ | .refMsgFramingError _ _ => [.refs]
  | .setSynth _ _ _ _ _ _ | .synthOn _ _ | .synthOff _ _ | .comparisonPeriodEnd _ _ => [.synth]
  | .setMode _ _ _ => [.key, .tb]
  | .killCarrier _ _ => [.key, .tb, .mon]
  | .setHold _ _ _ | .maintenance _ _ _ _ | .markIntervalEnd => [.key]
  | .postChange _ _ _ _ _ _ _ | .withdrawChange _ _ _ | .setZone _ _ _ _ | .selectZone _ _ _ =>
    [.sched]
  | .writeNotice _ _ _ _ | .selectNotice _ _ _ => [.comp]
  | .injectMonitorError _ _ | .monInRise _ | .monInFall _ | .markQuietClose | .markLongClose
  | .frameTimerExpiry => [.mon]
  | .moduleRead _ _ _ _ | .moduleWrite _ _ _ _ _ | .attemptSent _ | .moduleAnswer _ _
  | .answerWindowExpiry => [.bus]
  | .setScan _ _ _ _ _ => [.params, .bus]
  | .setParam _ _ _ _ => [.params, .bus, .mon]
  | .powerOnResetAssert _ | .linkFrameReceived _ _ _ | .linkGapExpiry _ | .linkFramingError _ _
  | .lengthOctetInvalid _ _ _ | .txReadyChange _ _ | .readStatus _ _ | .setAlertMask _ _ _
  | .setFaultMask _ _ _ | .readCounters _ _ _ | .tickNow _ _ | .setThreshold _ _ _ _ | .readTime _ _
  | .readReferences _ _ | .readSynth _ _ | .readKeyer _ _ _ | .readSchedule _ _ _ | .readRetired _ _ _
  | .readNotice _ _ _ | .readMonitor _ _ _ | .readModules _ _ _ | .readParam _ _ _ | .restart _ _ => []

end Sys2Proof

namespace Sys2Proof.Machine

/-- `t` agrees with `s` in every block that is not among `bs`. -/
structure State.KeepsBut (s : State) (bs : List Block) (t : State) : Prop where
  params : .params ∉ bs → t.params = s.params
  tb : .tb ∉ bs → t.tb = s.tb
  ref1 : .refs ∉ bs → t.ref1 = s.ref1
  ref2 : .refs ∉ bs → t.ref2 = s.ref2
  sel : .sel ∉ bs → t.sel = s.sel
  synth : .synth ∉ bs → t.synth = s.synth
  sched : .sched ∉ bs → t.sched = s.sched
  comp : .comp ∉ bs → t.comp = s.comp
  key : .key ∉ bs → t.key = s.key
  bus : .bus ∉ bs → t.bus = s.bus
  mon : .mon ∉ bs → t.mon = s.mon

theorem State.KeepsBut.all (s t : State) : s.KeepsBut Block.all t := by
  constructor <;> simp [Block.all]

theorem State.SameBlocks.keepsBut {s t : State} (h : s.SameBlocks t) (bs : List Block) :
    s.KeepsBut bs t := by
  rw [h]
  constructor <;> simp

theorem State.KeepsBut.trans {s t u : State} {bs : List Block} (h : s.KeepsBut bs t)
    (g : t.KeepsBut bs u) : s.KeepsBut bs u where
  params hb := (g.params hb).trans (h.params hb)
  tb hb := (g.tb hb).trans (h.tb hb)
  ref1 hb := (g.ref1 hb).trans (h.ref1 hb)
  ref2 hb := (g.ref2 hb).trans (h.ref2 hb)
  sel hb := (g.sel hb).trans (h.sel hb)
  synth hb := (g.synth hb).trans (h.synth hb)
  sched hb := (g.sched hb).trans (h.sched hb)
  comp hb := (g.comp hb).trans (h.comp hb)
  key hb := (g.key hb).trans (h.key hb)
  bus hb := (g.bus hb).trans (h.bus hb)
  mon hb := (g.mon hb).trans (h.mon hb)

/-- The octets of a frame reach the blocks by no way. -/
theorem State.rxOctets_keepsBut (l : Link) (bs : List Block) (octets : List Octet) (s : State) :
    s.KeepsBut bs (octets.foldl (fun s o => s.rxOctet l o) s) := by
  refine foldl_keeps (P := fun t => s.KeepsBut bs t) (fun t o ht => ht.trans ?_) octets s
    (State.SameBlocks.keepsBut (.refl s) bs)
  constructor <;> simp

/-- An owning block changes its own blocks only. -/
theorem act_keepsBut (c : Instr) (s : State) : s.KeepsBut c.writes (c.act s).state := by
  cases c
  all_goals
    simp only [Instr.act, actReadStatus, actSetAlertMask, actSetFaultMask, actReadCounters, actTickNow,
      actSetThreshold, actReadTime, actStepTime, actSelectReference, actSetRefEnable, actSetSelectMode,
      actReadReferences, actSetSynth, actSynthOn, actSynthOff, actReadSynth, actReadKeyer,
      actPostChange, actWithdrawChange, actReadSchedule, actReadRetired, actSetZone, actSelectZone,
      actWriteNotice, actSelectNotice, actReadNotice, actReadMonitor, actInjectMonitorError,
      actModuleRead, actModuleWrite, State.relay, actReadModules, actSetScan, actSetParam, actReadParam,
      actRestart, State.refuseReading, actSetMode, actKillCarrier, actSetHold, actMaintenance,
      State.requestOnAir]
  all_goals (repeat' split)
  all_goals constructor <;> simp [Instr.writes]

/-- An owning block touches no link and no input line, and no time passes in it. -/
theorem act_frame (c : Instr) (s : State) :
    (c.act s).state.por = s.por ∧ (c.act s).state.txReady = s.txReady ∧
      (c.act s).state.monIn = s.monIn ∧ (c.act s).state.freqFrom = s.freqFrom ∧
      (c.act s).state.now = s.now ∧ (c.act s).state.linkA = s.linkA ∧
      (c.act s).state.linkB = s.linkB ∧ (c.act s).state.pending = s.pending ∧
      (c.act s).state.freeCount = s.freeCount := by
  cases c
  all_goals
    simp only [Instr.act, actReadStatus, actSetAlertMask, actSetFaultMask, actReadCounters, actTickNow,
      actSetThreshold, actReadTime, actStepTime, actSelectReference, actSetRefEnable, actSetSelectMode,
      actReadReferences, actSetSynth, actSynthOn, actSynthOff, actReadSynth, actReadKeyer,
      actPostChange, actWithdrawChange, actReadSchedule, actReadRetired, actSetZone, actSelectZone,
      actWriteNotice, actSelectNotice, actReadNotice, actReadMonitor, actInjectMonitorError,
      actModuleRead, actModuleWrite, State.relay, actReadModules, actSetScan, actSetParam, actReadParam,
      actRestart, State.refuseReading, actSetMode, actKillCarrier, actSetHold, actMaintenance,
      State.requestOnAir]
  all_goals (repeat' split)
  all_goals simp

/-- An event changes the blocks that it acts on only. -/
theorem event_keepsBut {c : Instr} {s t : State} (hc : c.asRequest = none) (hx : exec c s = .next t) :
    s.KeepsBut c.writes t := by
  cases c
  all_goals cases hc
  case powerOnReset | restartNFall | awaitedRestart | linkBreak | responseSent => exact .all s t
  case linkFrameReceived l octets dt =>
    obtain rfl := Host.Outcome.next.inj hx
    have hw : s.KeepsBut [] (s.wait dt) := by constructor <;> simp
    split
    · exact hw
    · exact hw.trans (State.rxOctets_keepsBut l [] octets _)
  case powerOnResetAssert =>
    obtain rfl := Host.Outcome.next.inj hx
    constructor <;> exact fun _ => rfl
  all_goals obtain rfl := Host.Outcome.next.inj hx
  all_goals try dsimp only
  all_goals (repeat' split)
  all_goals constructor <;> simp [Instr.writes, Block.ofEdge]

/-- A command changes only the blocks that it writes. -/
theorem exec_keepsBut {c : Instr} {s t : State} (hx : exec c s = .next t) : s.KeepsBut c.writes t := by
  cases hc : c.asRequest with
  | none => exact event_keepsBut hc hx
  | some r =>
    obtain ⟨l, q⟩ := r
    rw [Instr.exec_request hc] at hx
    obtain rfl := Host.Outcome.next.inj hx
    obtain h | ⟨x, hxs, -, ht⟩ := s.request_cases l q c.act
    · exact h.keepsBut _
    · exact ((hxs.keepsBut _).trans (act_keepsBut c x)).trans (ht.keepsBut _)

end Sys2Proof.Machine

/-! The keyer's part of every command (R111..R130): what a second edge does to what the keyer holds, and
the order that every command keeps in it. -/

namespace Sys2Proof.Machine

/-! ## What the keyer holds beside its signal (R112) -/

/-- The keyer with nothing in it but its mode and what it holds: the signal's shape, the levels and the
report of a window are left out. -/
def Keyer.held (k : Keyer) : Keyer :=
  { k with full := 0, reduced := 0, gen := 0, mark := [], secIdx := 0, windowReport := false }

theorem Keyer.ordered_held {k : Keyer} : k.held.Ordered ↔ k.Ordered :=
  ⟨fun h => ⟨h.pending, h.offReq, h.maint, h.deferred, h.current, h.history⟩,
    fun h => ⟨h.pending, h.offReq, h.maint, h.deferred, h.current, h.history⟩⟩

theorem Keyer.Ordered.of_held {k k' : Keyer} (h : k.Ordered) (e : k'.held = k.held) : k'.Ordered :=
  Keyer.ordered_held.mp (e ▸ Keyer.ordered_held.mpr h)

theorem Keyer.mode_of_held {k k' : Keyer} (e : k'.held = k.held) : k'.mode = k.mode := by
  simpa [Keyer.held] using congrArg Keyer.mode e

@[simp] theorem State.loadLevels_held (s : State) : s.loadLevels.key.held = s.key.held := rfl

@[simp] theorem State.beginSignal_held (s : State) (b : Bool) :
    (s.beginSignal b).key.held = s.key.held := rfl

@[simp] theorem State.processSchedule_held (s : State) (f : Nat) :
    (s.processSchedule f).key.held = s.key.held := by
  have hkey : (s.processSchedule f).key =
      if s.sched.opensAt f then { s.key with windowReport := true } else s.key := by
    simp only [State.processSchedule]
    split <;> simp
  rw [hkey]
  split <;> rfl

@[simp] theorem State.composition_held (s : State) : s.composition.key.held = s.key.held := by
  simp [State.composition]

/-- The pulses, the levels, the second's mark and the composition leave what the keyer holds alone: only a
boundary acts on it. -/
theorem State.edgeFinished_held (s : State) : s.edgeFinished.key.held =
    if s.tb.atBoundary then s.keyerBoundary.key.held else s.key.held := by
  simp only [State.edgeFinished]
  split <;> split <;> simp_all [State.minuteBoundary]

/-! ## A change of mode (R113, R130) -/

/-- Frames are held in TIME_CODE only. -/
def Keyer.FramesInTimeCode (k : Keyer) : Prop :=
  (k.current.isSome = true → k.mode = .timeCode) ∧ (k.history ≠ [] → k.mode = .timeCode)

theorem Keyer.Ordered.frames {k : Keyer} (h : k.Ordered) : k.FramesInTimeCode := ⟨h.current, h.history⟩

/-- A change of mode leaves what waits in the keyer. -/
@[simp] theorem State.changeMode_waits (s : State) (m : Mode) :
    (s.changeMode m).key.mode = m ∧ (s.changeMode m).key.pendingMode = s.key.pendingMode ∧
      (s.changeMode m).key.offReq = s.key.offReq ∧ (s.changeMode m).key.maint = s.key.maint ∧
      (s.changeMode m).key.deferred = s.key.deferred ∧ (s.changeMode m).key.hold = s.key.hold := by
  simp only [State.changeMode]
  split
  case isTrue h => simp [h]
  case isFalse => split <;> simp [Keyer.enter, State.abandonStep]

/-- A change of mode leaves frames in TIME_CODE only. -/
theorem State.changeMode_frames {s : State} (h : s.key.FramesInTimeCode) (m : Mode) :
    (s.changeMode m).key.FramesInTimeCode := by
  obtain ⟨hc, hh⟩ := h
  by_cases hm : s.key.mode = m
  · rw [State.changeMode, if_pos hm]
    exact ⟨hc, hh⟩
  · have hkey : (s.changeMode m).key = s.key.enter m := by
      simp only [State.changeMode, if_neg hm]
      split <;> simp [State.abandonStep]
    rw [hkey]
    by_cases ht : s.key.mode = .timeCode
    · simp [Keyer.FramesInTimeCode, Keyer.enter, ht]
    · have hcn : s.key.current = none := by simpa using mt hc ht
      have hhn : s.key.history = [] := by simpa using mt hh ht
      simp [Keyer.FramesInTimeCode, Keyer.enter, hcn, hhn]

/-! ## The keyer's order (R112, R122) -/

/-- A keyer that waits for nothing but the end of maintenance is in order. -/
theorem Keyer.Ordered.of_idle {k : Keyer} (hp : k.pendingMode = none) (ho : k.offReq = none)
    (hm : ∀ m, k.maint = some m → k.mode = .offAir ∧ m.resume ≠ .offAir) (hd : k.deferred = false)
    (hf : k.FramesInTimeCode) : k.Ordered where
  pending m h := by simp [hp] at h
  offReq h := by simp [ho] at h
  maint := hm
  deferred h := by simp [hd] at h
  current := hf.1
  history := hf.2

/-- OFF_AIR_DEFERRED is clear while no off-air request waits. -/
theorem Keyer.Ordered.notDeferred {k : Keyer} (h : k.Ordered) (ho : k.offReq = none) :
    k.deferred = false := by
  simpa [ho] using mt h.deferred (by simp [ho])

theorem Keyer.Ordered.endFrame {k : Keyer} (h : k.Ordered) : k.endFrame.Ordered := by
  unfold Keyer.endFrame
  split
  case h_1 => exact h
  case h_2 f hf =>
    have ht : k.mode = .timeCode := h.current (by simp [hf])
    exact ⟨h.pending, h.offReq, h.maint, h.deferred, fun _ => ht, fun _ => ht⟩

theorem State.maintenanceDue_ordered {s : State} (h : s.key.Ordered) : s.maintenanceDue.key.Ordered := by
  unfold State.maintenanceDue
  split
  case h_1 => exact h
  case h_2 m hm =>
    obtain ⟨hoff, hres⟩ := h.maint m hm
    refine ⟨fun x hx => ?pending, fun hr => ?offReq, fun x hx => ?maint, h.deferred, h.current, h.history⟩
    case pending => simp [(h.pending x hx).2.2.2] at hm
    case offReq => simp [(h.offReq hr).2] at hm
    case maint =>
      obtain rfl := Option.some.inj hx
      exact ⟨hoff, hres⟩

theorem State.boundaryPending_ordered {s : State} {m : Mode} (h : s.key.Ordered)
    (hm : s.key.pendingMode = some m) : (s.boundaryPending m).key.Ordered := by
  obtain ⟨-, -, ho, hma⟩ := h.pending m hm
  have hd := h.notDeferred ho
  simp only [State.boundaryPending]
  split
  · exact .of_idle (by simp) (by simp [ho]) (by simp [hma]) (by simp [hd])
      (State.changeMode_frames (s := { s with key := { s.key with pendingMode := none } }) h.frames m)
  · exact .of_idle rfl ho (by simp [hma]) hd h.frames

theorem State.boundaryOffAir_ordered {s : State} {r : OffReq} (h : s.key.Ordered)
    (hr : s.key.offReq = some r) : (s.boundaryOffAir r).key.Ordered := by
  obtain ⟨hair, hma⟩ := h.offReq (by simp [hr])
  simp only [State.boundaryOffAir]
  split
  · refine ⟨fun m hm => ?_, fun _ => ⟨hair, hma⟩, h.maint, fun _ => rfl, h.current, h.history⟩
    simp [(h.pending m hm).2.2.1] at hr
  · have hp : s.key.pendingMode = none := by
      cases hm : s.key.pendingMode with
      | none => rfl
      | some m => simp [(h.pending m hm).2.2.1] at hr
    refine .of_idle (by simp [Keyer.dropOffReq, hp]) rfl (fun m hm => ?_) rfl
      (State.changeMode_frames h.frames .offAir)
    simp only [Option.map_eq_some_iff] at hm
    obtain ⟨e, -, rfl⟩ := hm
    exact ⟨by simp [Keyer.dropOffReq], hair⟩

theorem State.boundaryResume_ordered {s : State} {m : Maint} (h : s.key.Ordered)
    (hp : s.key.pendingMode = none) (ho : s.key.offReq = none) : (s.boundaryResume m).key.Ordered := by
  have hd := h.notDeferred ho
  unfold State.boundaryResume
  split
  · exact h
  · split
    · exact .of_idle (by simp [hp]) (by simp [ho]) (by simp) (by simp [hd])
        (State.changeMode_frames (s := { s with key := { s.key with maint := none } }) h.frames m.resume)
    · simpa using h

theorem State.boundaryMode_ordered {s : State} (h : s.key.Ordered) : s.boundaryMode.key.Ordered := by
  unfold State.boundaryMode
  split
  case h_1 m hm => exact State.boundaryPending_ordered h hm
  case h_2 r _ hr => exact State.boundaryOffAir_ordered h hr
  case h_3 m hp ho _ => exact State.boundaryResume_ordered h hp ho
  case h_4 => exact h

theorem State.takeFrame_ordered {s : State} (h : s.key.Ordered) : s.takeFrame.key.Ordered := by
  simp only [State.takeFrame]
  split
  case isFalse => exact h
  case isTrue ht =>
    split
    · exact ⟨h.pending, h.offReq, h.maint, h.deferred, fun _ => ht, fun _ => ht⟩
    · simpa using h

/-- The keyer's part of a boundary keeps its order. -/
theorem State.keyerBoundary_ordered {s : State} (h : s.key.Ordered) : s.keyerBoundary.key.Ordered := by
  have hend : ({ s with key := s.key.endFrame } : State).key.Ordered := h.endFrame
  exact (State.takeFrame_ordered (State.boundaryMode_ordered (State.maintenanceDue_ordered hend))).of_held rfl

/-! ## The commands that make an edge -/

/-- The state in which an edge of a kind leaves the timebase, the references and the levels. -/
def State.edgeStarted (s : State) (kind : EdgeKind) : State :=
  ((s.beginEdge kind).pulsesAtEdge kind).markBegun.loadLevels

theorem State.makeEdge_eq (s : State) (kind : EdgeKind) :
    s.makeEdge kind = (s.edgeStarted kind).edgeFinished := rfl

/-- An edge starts with the timebase, the references, the selector and the monitor's open mark. -/
theorem State.edgeStarted_keeps (s : State) (kind : EdgeKind) :
    (s.edgeStarted kind).txReady = s.txReady ∧ (s.edgeStarted kind).now = s.now ∧
      (s.edgeStarted kind).params = s.params ∧ (s.edgeStarted kind).synth = s.synth ∧
      (s.edgeStarted kind).sched = s.sched ∧ (s.edgeStarted kind).comp = s.comp ∧
      (s.edgeStarted kind).bus = s.bus ∧ (s.edgeStarted kind).key.held = s.key.held := by
  simp [State.edgeStarted]

/-- A command that can make a second edge either makes one, on a state in which only the timebase, the
references and the selector have moved, or makes none. -/
theorem exec_edge_cases {c : Instr} {s t : State} (hc : c.writes = Block.ofEdge)
    (hx : exec c s = .next t) : s.KeepsBut [.tb, .refs, .sel] t ∨
      ∃ x kind, s.KeepsBut [.tb, .refs, .sel] x ∧ x.txReady = s.txReady ∧ s.now ≤ x.now ∧
        t = (x.makeEdge kind).settle := by
  cases c <;> simp [Instr.writes, Block.ofEdge, Block.all] at hc
  all_goals obtain rfl := Host.Outcome.next.inj hx
  case secondEdge =>
    dsimp only
    split
    · exact .inl (State.SameBlocks.keepsBut (.refl s) _)
    · split
      · exact .inl (by constructor <;> simp)
      · exact .inr ⟨_, .counted, by constructor <;> simp, by simp, by simp [State.waitUntil], rfl⟩
  case phaseStepHoldExpiry =>
    split
    · exact .inl (State.SameBlocks.keepsBut (.refl s) _)
    · exact .inr ⟨_, .counted, by constructor <;> simp, by simp, by simp [State.waitUntil, State.abandonStep], rfl⟩
  case refPulse p dt =>
    dsimp only
    split
    · exact .inl (by constructor <;> simp)
    · have hnow : s.now ≤ s.now + dt := Nat.le_add_right ..
      unfold State.pulseEffects
      split
      · exact .inr ⟨_, _, by constructor <;> simp, by simp, by simp [State.wait], rfl⟩
      · split
        · exact .inr ⟨_, _, by constructor <;> simp, by simp, by simp [State.wait], rfl⟩
        · split <;> exact .inl (by constructor <;> simp)

end Sys2Proof.Machine

/-! The resets (R217..R220): what each command that resets leaves of the blocks. -/

namespace Sys2Proof.Machine

/-- A power-on start leaves every block at its reset value but for the source and the detector. -/
@[simp] theorem State.powerUp_blocks (s : State) :
    s.powerUp.por = false ∧ s.powerUp.txReady = s.txReady ∧ s.powerUp.monIn = s.monIn ∧
      s.powerUp.freqFrom = s.freqFrom - s.now ∧ s.powerUp.now = 0 ∧ s.powerUp.params = Params.reset ∧
      s.powerUp.ref1 = RefPort.reset ∧ s.powerUp.ref2 = RefPort.reset ∧ s.powerUp.sel = Selector.reset ∧
      s.powerUp.synth = Synth.reset ∧ s.powerUp.sched = Schedule.reset ∧
      s.powerUp.comp = Composer.reset ∧ s.powerUp.key = Keyer.reset ∧ s.powerUp.bus = Bus.reset ∧
      s.powerUp.linkA = LinkState.reset ∧ s.powerUp.linkB = LinkState.reset ∧
      s.powerUp.exe = Executor.reset ∧
      s.powerUp.tb = { Timebase.reset with source := if s.freqPresent then .station else .standby } ∧
      s.powerUp.mon = { Monitor.reset with det := detectorAtStart s.monIn } := by
  simp [State.powerUp, State.reset]

/-- A restart that a reset of the links can be: none, one that keeps the carry-over context, or one that
is a power-on start. -/
def State.Restarted (x t : State) : Prop :=
  t = x ∨ (x.params.carryOver = true ∧ t = x.restartKeeping) ∨ t = x.powerUp

theorem State.stationRestart_restarted (x : State) : x.Restarted x.stationRestart := by
  unfold State.stationRestart
  split
  case isTrue h => exact .inr (.inl ⟨h, rfl⟩)
  case isFalse => exact .inr (.inr rfl)

theorem State.resetLink_keepsBut (s : State) (l : Link) :
    s.KeepsBut [.bus] ((s.clearLink l).resetView l) := by
  constructor <;> simp

theorem State.linkReset_cases (s : State) (l : Link) :
    ((s.clearLink l).resetView l).Restarted (s.linkReset l) := by
  unfold State.linkReset
  split
  · exact State.stationRestart_restarted _
  · exact .inl rfl

/-- A command that resets first lets time pass and may clear a link, and then may restart the part. -/
theorem exec_reset_cases {c : Instr} {s t : State} (hc : c.writes = Block.all)
    (hx : exec c s = .next t) :
    ∃ x, s.KeepsBut [.bus] x ∧ s.now ≤ x.now ∧
      (x.bus = s.bus ∨ ∃ l, x.bus = s.bus.unwanted l) ∧ x.Restarted t := by
  have hnow (dt : Nat) : s.now ≤ (s.wait dt).now := Nat.le_add_right ..
  have hwait (dt : Nat) : s.KeepsBut [.bus] (s.wait dt) := by constructor <;> simp
  cases c <;> simp [Instr.writes, Block.ofEdge, Block.all] at hc
  all_goals obtain rfl := Host.Outcome.next.inj hx
  case powerOnReset dt => exact ⟨_, hwait dt, hnow dt, .inl rfl, .inr (.inr rfl)⟩
  case restartNFall dt =>
    refine ⟨_, hwait dt, hnow dt, .inl rfl, ?_⟩
    split
    · exact .inl rfl
    · exact State.stationRestart_restarted _
  case awaitedRestart dt =>
    refine ⟨_, hwait dt, hnow dt, .inl rfl, ?_⟩
    split
    · exact .inl rfl
    · exact State.stationRestart_restarted _
  case linkBreak l dt =>
    split
    · exact ⟨_, hwait dt, hnow dt, .inl rfl, .inl rfl⟩
    · refine ⟨_, (hwait dt).trans (State.resetLink_keepsBut _ l), by simpa using hnow dt, .inr ⟨l, ?_⟩,
        State.linkReset_cases _ l⟩
      simp [State.clearLink]
  case responseSent l dt =>
    split
    case h_1 => exact ⟨_, hwait dt, hnow dt, .inl rfl, .inl rfl⟩
    case h_2 r _ _ =>
      split
      · exact ⟨_, hwait dt, hnow dt, .inl rfl, .inl rfl⟩
      · refine ⟨(s.wait dt).setLink l (((s.wait dt).link l).sent r), (hwait dt).trans ?_,
          by simpa using hnow dt, .inl (by simp), ?_⟩
        · constructor <;> simp
        · split
          · exact State.stationRestart_restarted _
          · exact .inl rfl

/-- The blocks of the carry-over context, which a command that resets keeps or sets to their reset
values. -/
theorem exec_reset_context {c : Instr} {s t : State} (hc : c.writes = Block.all)
    (hx : exec c s = .next t) :
    (t.params = s.params ∧ t.tb = s.tb ∧ t.ref1 = s.ref1 ∧ t.ref2 = s.ref2 ∧ t.sel = s.sel ∧
      t.synth = s.synth ∧ t.sched = s.sched ∧ t.comp = s.comp ∧ t.key = s.key ∧ s.now ≤ t.now) ∨
    (t.params = Params.reset ∧ (∃ src, t.tb = { Timebase.reset with source := src }) ∧
      t.ref1 = RefPort.reset ∧ t.ref2 = RefPort.reset ∧ t.sel = Selector.reset ∧
      t.synth = Synth.reset ∧ t.sched = Schedule.reset ∧ t.comp = Composer.reset ∧
      t.key = Keyer.reset) := by
  obtain ⟨x, hk, hn, -, h⟩ := exec_reset_cases hc hx
  have hs := And.intro (hk.params (by simp)) <| And.intro (hk.tb (by simp)) <|
    And.intro (hk.ref1 (by simp)) <| And.intro (hk.ref2 (by simp)) <| And.intro (hk.sel (by simp)) <|
    And.intro (hk.synth (by simp)) <| And.intro (hk.sched (by simp)) <|
    And.intro (hk.comp (by simp)) (hk.key (by simp))
  obtain rfl | ⟨-, rfl⟩ | rfl := h
  · exact .inl (by simpa [hn] using hs)
  · exact .inl (by simpa [hn] using hs)
  · exact .inr (by simp)

end Sys2Proof.Machine

/-! The order that every command keeps in the keyer (R112..R130), the carrier that it needs on air (R115,
R146), and the way on to the air (R113). -/

namespace Sys2Proof.Machine

/-! ## The keyer's order -/

theorem Keyer.reset_ordered : Keyer.reset.Ordered :=
  .of_idle rfl rfl (by simp [Keyer.reset]) rfl (by simp [Keyer.FramesInTimeCode, Keyer.reset])

theorem State.edgeFinished_ordered {s : State} (h : s.key.Ordered) : s.edgeFinished.key.Ordered := by
  have hheld := s.edgeFinished_held
  split at hheld
  · exact (State.keyerBoundary_ordered h).of_held hheld
  · exact h.of_held hheld

theorem State.makeEdge_ordered {s : State} (h : s.key.Ordered) (kind : EdgeKind) :
    (s.makeEdge kind).key.Ordered := by
  obtain ⟨-, -, -, -, -, -, -, hheld⟩ := s.edgeStarted_keeps kind
  exact State.edgeFinished_ordered (h.of_held hheld)

/-- SET_MODE of an on-air mode takes the place of whatever the keyer waits for. -/
theorem State.requestOnAir_ordered {s : State} {m : Mode} (h : s.key.Ordered) (hm : m ≠ .offAir) :
    (s.requestOnAir m).state.key.Ordered := by
  by_cases hs : s.key.mode = m
  · rw [State.requestOnAir_same hs]
    exact .of_idle rfl rfl h.maint rfl h.frames
  · by_cases hc : s.onAirChecks m = true
    · rw [State.requestOnAir_pending hs hc]
      refine ⟨fun x hx => ?_, by simp, by simp, by simp, h.current, h.history⟩
      obtain rfl := Option.some.inj hx
      exact ⟨fun e => hs e.symm, hm, rfl, rfl⟩
    · rw [State.requestOnAir_notReady hs hc]
      exact h

/-- A keyer on air holds no maintenance record, so a request to go off the air can wait. -/
theorem Keyer.Ordered.waitOffAir {k : Keyer} (h : k.Ordered) (hair : k.mode ≠ .offAir)
    (e : Option (Nat × Nat)) : (k.waitOffAir e).Ordered := by
  have hm : k.maint = none := Option.eq_none_iff_forall_ne_some.mpr fun m hm => hair (h.maint m hm).1
  exact ⟨by simp [Keyer.waitOffAir], fun _ => ⟨hair, hm⟩, h.maint, fun _ => rfl, h.current, h.history⟩

theorem actSetMode_ordered {s : State} (h : s.key.Ordered) (o : Octet) :
    (actSetMode o s).state.key.Ordered := by
  cases hm : modeOf o with
  | none => rw [actSetMode_badArgument hm]; exact h
  | some m =>
    by_cases ho : m = .offAir
    · subst ho
      by_cases hk : s.key.mode = .offAir
      · rw [actSetMode_offAir_off hm hk]
        have ho : s.key.offReq = none := by simpa [hk] using mt h.offReq (by simp [hk])
        exact .of_idle rfl ho (by simp) (h.notDeferred ho) h.frames
      · rw [actSetMode_offAir_on hm hk]
        exact h.waitOffAir hk none
    · rw [actSetMode_onAir hm ho]
      exact State.requestOnAir_ordered h ho

theorem actMaintenance_ordered {s : State} (h : s.key.Ordered) (day minute : BitVec 16) :
    (actMaintenance day minute s).state.key.Ordered := by
  simp only [actMaintenance]
  split
  · exact h
  · split
    · exact h
    · split
      · exact h
      · split
        case isTrue hair => exact h.waitOffAir (s.key.onAir_iff.mp hair) _
        case isFalse =>
          split
          case h_1 => exact h
          case h_2 m hm =>
            obtain ⟨hoff, hres⟩ := h.maint m hm
            refine ⟨fun x hx => ?_, fun hr => ?_, fun x hx => ?_, h.deferred, h.current, h.history⟩
            · simp [(h.pending x hx).2.2.2] at hm
            · simp [(h.offReq hr).2] at hm
            · obtain rfl := Option.some.inj hx
              exact ⟨hoff, hres⟩

theorem State.kill_ordered {s : State} (h : s.key.Ordered) : s.kill.key.Ordered :=
  .of_idle rfl rfl (by simp [State.kill, Keyer.dropOffReq]) rfl
    ⟨by simp [State.kill, Keyer.dropOffReq], (State.changeMode_frames h.frames .offAir).2⟩

/-- Every command keeps the keyer's order. -/
theorem exec_ordered {c : Instr} {s t : State} (h : s.key.Ordered) (hx : exec c s = .next t) :
    t.key.Ordered := by
  by_cases hw : .key ∈ c.writes
  case neg => exact (exec_keepsBut hx).key hw ▸ h
  case pos =>
    by_cases hreset : c.writes = Block.all
    · obtain ⟨-, -, -, -, -, -, -, -, hk, -⟩ | ⟨-, -, -, -, -, -, -, -, hk⟩ :=
        exec_reset_context hreset hx
      · exact hk ▸ h
      · exact hk ▸ Keyer.reset_ordered
    by_cases hedge : c.writes = Block.ofEdge
    · obtain hk | ⟨x, kind, hk, -, -, rfl⟩ := exec_edge_cases hedge hx
      · exact hk.key (by simp) ▸ h
      · rw [← hk.key (by simp)] at h
        simpa using State.makeEdge_ordered h kind
    have hP (s t : State) (hs : s.SameBlocks t) (hk : s.key.Ordered) : t.key.Ordered :=
      (hs.keepsBut []).key (by simp) ▸ hk
    cases c <;> simp [Instr.writes, Block.all, Block.ofEdge] at hw hreset hedge
    case setMode l tag o =>
      exact exec_request_keeps hP hx rfl h fun x hk => actSetMode_ordered hk o
    case killCarrier => exact exec_request_keeps hP hx rfl h fun x hk => State.kill_ordered hk
    case maintenance l tag day minute =>
      exact exec_request_keeps hP hx rfl h fun x hk => actMaintenance_ordered hk day minute
    case setHold l tag o =>
      refine exec_request_keeps hP hx rfl h fun x hk => ?_
      simp only [Instr.act, actSetHold]
      split
      · exact hk
      · exact ⟨hk.pending, hk.offReq, hk.maint, hk.deferred, hk.current, hk.history⟩
    case markIntervalEnd =>
      obtain rfl := Host.Outcome.next.inj hx
      split
      · exact h
      · split
        · exact h
        · exact h.of_held rfl

end Sys2Proof.Machine

/-! The way on to the air (R113, R115), and the carrier that the keyer needs there (R137..R146). -/

namespace Sys2Proof.Machine

/-! ## The modes that a boundary enters (R113, R115, R127) -/

/-- The mode after an event on a state that may enter modes by the on-air checks: the one before, OFF_AIR, or
one that passes the checks. -/
def State.AirMove (s : State) (m : Mode) : Prop :=
  m = s.key.mode ∨ m = .offAir ∨ s.onAirChecks m = true

/-- The on-air checks look at the mode, the synthesizer, the readiness and the time state. -/
theorem State.onAirChecks_congr {s t : State} (hm : t.key.mode = s.key.mode) (hy : t.synth = s.synth)
    (hr : t.transmitterReady = s.transmitterReady) (ht : t.tb.timeSet = s.tb.timeSet) (m : Mode) :
    t.onAirChecks m = s.onAirChecks m := by
  simp [State.onAirChecks, Keyer.onAir, hm, hy, hr, ht]

theorem State.AirMove.congr {s t : State} {m : Mode} (h : t.AirMove m) (hm : t.key.mode = s.key.mode)
    (hy : t.synth = s.synth) (hr : t.transmitterReady = s.transmitterReady)
    (ht : t.tb.timeSet = s.tb.timeSet) : s.AirMove m := by
  rwa [State.AirMove, State.onAirChecks_congr hm hy hr ht, hm] at h

theorem State.boundaryMode_airMove (s : State) : s.AirMove s.boundaryMode.key.mode := by
  unfold State.boundaryMode
  split
  case h_1 m _ =>
    simp only [State.boundaryPending]
    split
    case isTrue hc => exact .inr (.inr (by simpa using hc))
    case isFalse => exact .inl (by simp)
  case h_2 r _ _ =>
    simp only [State.boundaryOffAir]
    split
    · exact .inl rfl
    · exact .inr (.inl (by simp [Keyer.dropOffReq]))
  case h_3 m _ _ _ =>
    unfold State.boundaryResume
    split
    · exact .inl rfl
    · split
      case isTrue hc => exact .inr (.inr (by simpa using hc))
      case isFalse => exact .inl (by simp)
  case h_4 => exact .inl rfl

theorem State.maintenanceDue_mode (s : State) : s.maintenanceDue.key.mode = s.key.mode := by
  unfold State.maintenanceDue
  split <;> rfl

theorem State.takeFrame_mode (s : State) : s.takeFrame.key.mode = s.key.mode := by
  simp only [State.takeFrame]
  repeat' split
  all_goals simp

theorem Keyer.endFrame_mode (k : Keyer) : k.endFrame.mode = k.mode := by
  unfold Keyer.endFrame
  split <;> rfl

/-- A boundary enters an on-air mode by the on-air checks only. -/
theorem State.keyerBoundary_airMove (s : State) : s.AirMove s.keyerBoundary.key.mode := by
  have h := State.boundaryMode_airMove (State.maintenanceDue { s with key := s.key.endFrame })
  have hm : s.keyerBoundary.key.mode =
      (State.maintenanceDue { s with key := s.key.endFrame }).boundaryMode.key.mode :=
    State.takeFrame_mode _
  rw [hm]
  refine h.congr ?_ (by simp) (by simp [State.transmitterReady]) (by simp)
  rw [State.maintenanceDue_mode]
  exact Keyer.endFrame_mode s.key

/-- A second edge enters an on-air mode from OFF_AIR with lock and readiness only, and TIME_CODE with time
SET only. -/
theorem State.makeEdge_mode (s : State) (kind : EdgeKind) :
    let t := s.makeEdge kind
    t.key.mode = s.key.mode ∨ t.key.mode = .offAir ∨
      ((s.key.mode = .offAir → s.synth.st = .locked ∧ s.transmitterReady = true) ∧
        (t.key.mode = .timeCode → t.tb.timeSet = true)) := by
  obtain ⟨htx, -, hparams, hsynth, -, -, hbus, hheld⟩ := s.edgeStarted_keeps kind
  have hmode : (s.edgeStarted kind).key.mode = s.key.mode := Keyer.mode_of_held hheld
  have hready : (s.edgeStarted kind).transmitterReady = s.transmitterReady := by
    simp [State.transmitterReady, htx, hparams, hbus]
  have hfin := (s.edgeStarted kind).edgeFinished_held
  have htime := (s.edgeStarted kind).edgeFinished_time.1
  simp only [State.makeEdge_eq]
  split at hfin
  case isFalse => exact .inl ((Keyer.mode_of_held hfin).trans hmode)
  case isTrue =>
    have hmove := (s.edgeStarted kind).keyerBoundary_airMove
    rw [← Keyer.mode_of_held hfin, State.AirMove, State.onAirChecks_iff, hmode, hsynth, hready] at hmove
    rw [htime]
    exact hmove

theorem actSetMode_mode (o : Octet) (s : State) : (actSetMode o s).state.key.mode = s.key.mode := by
  cases hm : modeOf o with
  | none => rw [actSetMode_badArgument hm]; rfl
  | some m =>
    by_cases ho : m = .offAir
    · subst ho
      by_cases hk : s.key.mode = .offAir
      · rw [actSetMode_offAir_off hm hk]; rfl
      · rw [actSetMode_offAir_on hm hk]; rfl
    · rw [actSetMode_onAir hm ho]
      by_cases hs : s.key.mode = m
      · rw [State.requestOnAir_same hs]; rfl
      · by_cases hc : s.onAirChecks m = true
        · rw [State.requestOnAir_pending hs hc]; rfl
        · rw [State.requestOnAir_notReady hs hc]; rfl

theorem actMaintenance_mode (day minute : BitVec 16) (s : State) :
    (actMaintenance day minute s).state.key.mode = s.key.mode := by
  simp only [actMaintenance]
  repeat' split
  all_goals simp [Keyer.waitOffAir]

theorem actSetHold_mode (o : Octet) (s : State) : (actSetHold o s).state.key.mode = s.key.mode := by
  unfold actSetHold
  split <;> rfl

/-- A command leaves the keyer's mode, takes it off the air, or makes an edge that enters a mode by the
on-air checks. -/
theorem exec_mode {c : Instr} {s t : State} (hx : exec c s = .next t) :
    t.key.mode = s.key.mode ∨ t.key.mode = .offAir ∨
      (c.writes = Block.ofEdge ∧
        (s.key.mode = .offAir → s.synth.st = .locked ∧ s.transmitterReady = true) ∧
        (t.key.mode = .timeCode → t.tb.timeSet = true)) := by
  by_cases hw : .key ∈ c.writes
  case neg => exact .inl (by rw [(exec_keepsBut hx).key hw])
  by_cases hreset : c.writes = Block.all
  case pos =>
    obtain ⟨-, -, -, -, -, -, -, -, hk, -⟩ | ⟨-, -, -, -, -, -, -, -, hk⟩ := exec_reset_context hreset hx
    · exact .inl (by rw [hk])
    · exact .inr (.inl (by rw [hk]; rfl))
  by_cases hedge : c.writes = Block.ofEdge
  case pos =>
    obtain hk | ⟨x, kind, hk, htx, -, rfl⟩ := exec_edge_cases hedge hx
    · exact .inl (by rw [hk.key (by simp)])
    · have hmode := x.makeEdge_mode kind
      have hready : x.transmitterReady = s.transmitterReady := by
        simp [State.transmitterReady, htx, hk.params, hk.bus]
      simpa [hedge, hk.key, hk.synth, hready] using hmode
  case neg =>
    let P : State → Prop := fun x => x.key.mode = s.key.mode ∨ x.key.mode = .offAir
    have hP (x y : State) (hs : x.SameBlocks y) (hk : P x) : P y := by
      simpa [P, (hs.keepsBut []).key (by simp)] using hk
    suffices h : P t from h.imp_right .inl
    have h0 : P s := .inl rfl
    cases c <;> simp [Instr.writes, Block.all, Block.ofEdge] at hw hreset hedge
    case setMode l tag o =>
      exact exec_request_keeps hP hx rfl h0 fun x hk => by
        simpa [P, Instr.act, actSetMode_mode] using hk
    case killCarrier =>
      exact exec_request_keeps hP hx rfl h0 fun x _ => .inr (by
        simp [Instr.act, actKillCarrier, State.kill, Keyer.dropOffReq])
    case maintenance l tag day minute =>
      exact exec_request_keeps hP hx rfl h0 fun x hk => by
        simpa [P, Instr.act, actMaintenance_mode] using hk
    case setHold l tag o =>
      exact exec_request_keeps hP hx rfl h0 fun x hk => by
        simpa [P, Instr.act, actSetHold_mode] using hk
    case markIntervalEnd =>
      obtain rfl := Host.Outcome.next.inj hx
      split
      · exact h0
      · split <;> exact .inl rfl

/-! ## The synthesizer under the keyer (R137..R146) -/

/-- The settings of a synthesizer that every running and judgement leaves alone. -/
def Synth.settings (y : Synth) : Nat × Nat × Nat × Nat := (y.n, y.k, y.p, y.b)

/-- A synthesizer as it was set, running if it ran. -/
def Synth.RunsOn (y y' : Synth) : Prop :=
  y'.settings = y.settings ∧ (y.st ≠ .off → y'.st ≠ .off)

theorem Synth.RunsOn.refl (y : Synth) : y.RunsOn y := ⟨rfl, id⟩

theorem Synth.judged_runsOn (y : Synth) (j : Bool) : y.RunsOn (y.judged j) := by
  unfold Synth.judged
  split
  all_goals try split
  all_goals simp_all [Synth.RunsOn, Synth.settings]

theorem Synth.acquire_runsOn (y : Synth) (now : Nat) : y.RunsOn (y.acquire now) :=
  ⟨rfl, fun _ => by simp [Synth.acquire]⟩

@[simp] theorem State.setSynth_synth (s : State) (y : Synth) : (s.setSynth y).synth = y := by
  simp [State.setSynth]

theorem State.synthSourceChange_runsOn (s : State) : s.synth.RunsOn s.synthSourceChange.synth := by
  unfold State.synthSourceChange
  split
  · exact .refl _
  · simpa using s.synth.acquire_runsOn s.now

theorem State.periodEnd_runsOn (s : State) (num den : Nat) : s.synth.RunsOn (s.periodEnd num den).synth := by
  have h : s.synth.RunsOn _ := Synth.judged_runsOn { s.synth with
    last := phaseJudgement num den, periodAt := max s.now (s.synth.periodAt + s.synth.k) }
    (phaseJudgement num den = .within)
  simpa [State.periodEnd, State.waitUntil] using h

/-- A synthesizer that runs on makes the carrier if it did. -/
theorem State.CarrierMade.runsOn {s t : State} (h : s.CarrierMade) (hk : t.key = s.key)
    (hy : s.synth.RunsOn t.synth) : t.CarrierMade := by
  obtain ⟨hset, hrun⟩ := hy
  simp only [Synth.settings, Prod.mk.injEq] at hset
  obtain ⟨hn, hkk, hp, hb⟩ := hset
  exact ⟨fun hm => hrun (h.running (hk ▸ hm)), by rw [hn, hkk, hp, hb]; exact h.settings⟩

/-- SET_SYNTH stores settings that pass its own checks, in OFF only, where the keyer is off the air. -/
theorem actSetSynth_carrierMade {s : State} (h : s.CarrierMade) (n k : BitVec 16) (p b : Octet) :
    (actSetSynth n k p b s).state.CarrierMade := by
  simp only [actSetSynth]
  split
  · exact h
  · split
    · exact h
    case h_2 hf => exact ⟨h.running, hf⟩

theorem actSynthOn_carrierMade {s : State} (h : s.CarrierMade) : (actSynthOn s).state.CarrierMade := by
  unfold actSynthOn
  split
  · exact h.runsOn rfl (s.synth.acquire_runsOn s.now)
  · exact h
  · exact h

/-- SYNTH_OFF is refused on air. -/
theorem actSynthOff_carrierMade {s : State} (h : s.CarrierMade) : (actSynthOff s).state.CarrierMade := by
  by_cases hs : s.synth.st = .off
  · rw [actSynthOff_off hs]; exact h
  · by_cases hk : s.key.mode = .offAir
    · rw [actSynthOff_offAir hs hk]
      exact ⟨fun hm => absurd hk (by simpa [State.synthStopped] using hm), by
        simpa [State.synthStopped_synth, Synth.stop] using h.settings⟩
    · rw [actSynthOff_onAir hs hk]; exact h

theorem Keyer.reset_offAir : Keyer.reset.mode = .offAir := rfl

/-- Every command keeps the carrier made: a keyer that comes on the air does so on a locked synthesizer,
and no synthesizer stops under a keyer on air. -/
theorem exec_carrierMade {c : Instr} {s t : State} (h : s.CarrierMade) (hx : exec c s = .next t) :
    t.CarrierMade := by
  have hP (x y : State) (hs : x.SameBlocks y) (hc : x.CarrierMade) : y.CarrierMade :=
    hc.runsOn ((hs.keepsBut []).key (by simp)) (by rw [(hs.keepsBut []).synth (by simp)]; exact .refl _)
  by_cases hw : .synth ∈ c.writes
  case neg =>
    have hy := (exec_keepsBut hx).synth hw
    refine ⟨fun hm => ?_, by rw [hy]; exact h.settings⟩
    rw [hy]
    obtain hsame | hoff | ⟨-, hair, -⟩ := exec_mode hx
    · exact h.running (hsame ▸ hm)
    · exact absurd hoff hm
    · by_cases ho : s.key.mode = .offAir
      · simp [(hair ho).1]
      · exact h.running ho
  by_cases hreset : c.writes = Block.all
  case pos =>
    obtain ⟨-, -, -, -, -, hy, -, -, hk, -⟩ | ⟨-, -, -, -, -, hy, -, -, hk⟩ := exec_reset_context hreset hx
    · exact h.runsOn hk (by rw [hy]; exact .refl _)
    · exact ⟨fun hm => absurd (hk ▸ Keyer.reset_offAir) hm, by rw [hy]; decide⟩
  case neg =>
    cases c <;> simp [Instr.writes, Block.all, Block.ofEdge] at hw hreset
    case setSynth l tag n k p b =>
      exact exec_request_keeps hP hx rfl h fun x hc => actSetSynth_carrierMade hc n k p b
    case synthOn => exact exec_request_keeps hP hx rfl h fun x hc => actSynthOn_carrierMade hc
    case synthOff => exact exec_request_keeps hP hx rfl h fun x hc => actSynthOff_carrierMade hc
    case comparisonPeriodEnd num den =>
      obtain rfl := Host.Outcome.next.inj hx
      split
      · exact h
      · exact h.runsOn (by simp) (by simpa using s.periodEnd_runsOn num den)
    case freqInAbsent n dt =>
      obtain rfl := Host.Outcome.next.inj hx
      dsimp only
      split
      · exact h.runsOn (by simp) (by simpa using .refl _)
      · exact h.runsOn (by simp) (by simpa [State.sourceChange] using State.synthSourceChange_runsOn _)
    case freqInReturn =>
      obtain rfl := Host.Outcome.next.inj hx
      split
      · exact h
      · exact h.runsOn (by simp) (by simpa [State.sourceChange] using State.synthSourceChange_runsOn _)

end Sys2Proof.Machine

namespace Sys2Proof

open Sys2Proof.Machine

/-- Settles O41: a boundary, a change of mode and each request keep what the keyer holds apart. -/
theorem keyerStateStaysOrdered : Obligations.KeyerStateStaysOrdered :=
  fun _ _ h hs => step_keeps (P := fun x => x.key.Ordered) (fun _ _ => id) (fun _ _ _ => exec_ordered) h hs

/-- Settles O42: only an edge comes on to the air, by the on-air checks of its boundary. -/
theorem onAirNeedsLockAndReadiness : Obligations.OnAirNeedsLockAndReadiness := by
  intro c s t hx hne hoff
  obtain hsame | ho | ⟨hw, hair, htime⟩ := exec_mode hx
  · exact absurd hsame hne
  · exact absurd ho hoff
  · refine ⟨?_, hair, htime⟩
    cases c <;> simp [Instr.writes, Block.all, Block.ofEdge] at hw ⊢

/-- Settles O34: the way on to the air asks for a locked synthesizer, and SYNTH_OFF for a keyer off it. -/
theorem carrierIsMadeWhileOnAir : Obligations.CarrierIsMadeWhileOnAir :=
  fun _ _ h hs => step_keeps (P := State.CarrierMade) (fun _ _ h => ⟨h.running, h.settings⟩)
    (fun _ _ _ => exec_carrierMade) h hs

end Sys2Proof

/-! The change schedule under every command (R65..R87): the ways in which the table, the retired list and
the zone can move, and the order that each way keeps. -/

namespace Sys2Proof.Machine

/-- Executing a request command leaves the blocks as they are, or as its owning block leaves them. -/
theorem exec_request_cases {c : Instr} {s t : State} (hx : exec c s = .next t)
    (hc : c.asRequest.isSome = true) :
    s.SameBlocks t ∨ ∃ x, s.SameBlocks x ∧ s.por = false ∧ (c.act x).state.SameBlocks t := by
  obtain ⟨⟨l, q⟩, hlq⟩ := Option.isSome_iff_exists.mp hc
  rw [Instr.exec_request hlq] at hx
  cases hx
  exact s.request_cases l q c.act

/-! ## The ways in which the schedule moves -/

/-- What the schedule holds beside its numbering, its version and the zone offsets. -/
def Schedule.table (t : Schedule) : List Entry × List Retired × Nat × Option Nat :=
  (t.entries, t.retired, t.zone, t.pendingZone)

/-- The ways in which a command can move the schedule. -/
inductive Schedule.Move (t t' : Schedule) : Prop
  /-- The table stays. -/
  | kept (h : t'.table = t.table)
  /-- POST_CHANGE inserts an entry that clashes with none (R71, R72). -/
  | posted (x : Entry) (hc : ∀ y ∈ t.entries, x.conflicts y = false) (hl : t.entries.length < 16)
      (hz : ∀ z, x.newZone = some z → z ≤ 3)
      (h : t'.table = (insertEntry x t.entries, t.retired, t.zone, t.pendingZone))
  /-- WITHDRAW_CHANGE takes an entry out (R73). -/
  | withdrawn (p : Entry → Bool) (r : Retired)
      (h : t'.table = (t.entries.filter p, keepLast 8 (t.retired ++ [r]), t.zone, t.pendingZone))
  /-- SELECT_ZONE makes a selection pending (R87). -/
  | selected (z : Nat) (hz : z ≤ 3) (h : t'.table = (t.entries, t.retired, t.zone, some z))
  /-- A composition instant processes the table for a frame minute (R75..R80). -/
  | processed (f day sec : Nat) (h : t'.table = (t.process f day sec).table)
  /-- A power-on start empties it (R88). -/
  | reset (h : t' = Schedule.reset)

@[simp] theorem State.scheduleChanged_table (s : State) : s.scheduleChanged.sched.table = s.sched.table := by
  simp [State.scheduleChanged, Schedule.table]

/-- The zone of a new entry is one that the arguments may name (R69). -/
theorem State.newEntry_zone {s : State} {l : Link} {kd : ChangeKind} {day minute zone lead now : Nat}
    (hv : postingValid kd day minute zone now = true) {z : Nat}
    (hz : (s.newEntry l kd day minute zone lead).newZone = some z) : z ≤ 3 := by
  obtain ⟨-, -, -, hzone⟩ := (postingValid_iff kd day minute zone now).mp hv
  simp only [State.newEntry] at hz
  split at hz
  case isTrue h =>
    rw [if_pos h] at hzone
    exact Option.some.inj hz ▸ hzone
  case isFalse => cases hz

theorem State.post_move (s : State) {x : Entry} (hz : ∀ z, x.newZone = some z → z ≤ 3) :
    s.sched.Move (s.post x).state.sched := by
  unfold State.post
  split
  · exact .kept rfl
  · split
    · exact .kept rfl
    case h_2 hfind =>
      split
      · exact .kept rfl
      · exact .posted x (by simpa using hfind) (by omega) hz rfl

theorem actPostChange_move (l : Link) (kind : Octet) (day minute : BitVec 16) (zone : Octet)
    (lead : BitVec 16) (s : State) :
    s.sched.Move (actPostChange l kind day minute zone lead s).state.sched := by
  by_cases ht : s.tb.timeSet = true
  · cases hk : kindOf kind with
    | none => rw [actPostChange_badKind ht hk]; exact .kept rfl
    | some kd =>
      by_cases hv : postingValid kd day.toNat minute.toNat zone.toNat s.tb.minute = true
      · rw [actPostChange_valid ht hk hv]
        exact s.post_move fun z => State.newEntry_zone hv
      · rw [actPostChange_badArgument ht hk hv]; exact .kept rfl
  · rw [actPostChange_notReady (by simpa using ht)]; exact .kept rfl

theorem actWithdrawChange_move (l : Link) (number : Octet) (s : State) :
    s.sched.Move (actWithdrawChange l number s).state.sched := by
  unfold actWithdrawChange
  split
  · exact .kept rfl
  · split
    · exact .kept rfl
    · split
      · exact .kept rfl
      · exact .withdrawn _ _ rfl

theorem actSetZone_move (index offset : Octet) (s : State) :
    s.sched.Move (actSetZone index offset s).state.sched := by
  simp only [actSetZone, State.writeZone]
  split
  · exact .kept rfl
  · split
    · exact .kept rfl
    · simp only [Acted.state_answered]
      split
      · exact .kept rfl
      · exact .kept rfl

theorem actSelectZone_move (index : Octet) (s : State) :
    s.sched.Move (actSelectZone index s).state.sched := by
  unfold actSelectZone
  split
  · exact .kept rfl
  · split
    · exact .kept rfl
    · exact .selected index.toNat (by omega) rfl

theorem State.processSchedule_move (s : State) (f : Nat) :
    s.sched.Move (s.processSchedule f).sched := by
  simp only [State.processSchedule]
  split <;> exact .processed f s.tb.day s.tb.sec rfl

theorem State.composition_move (s : State) : s.sched.Move s.composition.sched := by
  simpa [State.composition] using s.leapCheck.processSchedule_move (nextMinute s.tb.minute)

theorem State.edgeFinished_move (s : State) : s.sched.Move s.edgeFinished.sched := by
  have hsched : ((if s.tb.atBoundary then s.minuteBoundary else s).beginSignal s.tb.atBoundary).sched =
      s.sched := by
    split <;> simp
  simp only [State.edgeFinished]
  generalize (if s.tb.atBoundary then s.minuteBoundary else s).beginSignal s.tb.atBoundary = x at hsched ⊢
  split
  · exact hsched ▸ x.composition_move
  · exact .kept (by rw [hsched])

theorem State.makeEdge_move (s : State) (kind : EdgeKind) : s.sched.Move (s.makeEdge kind).sched := by
  obtain ⟨-, -, -, -, hsched, -, -, -⟩ := s.edgeStarted_keeps kind
  rw [State.makeEdge_eq, ← hsched]
  exact State.edgeFinished_move _

/-- Every command moves the schedule in one of the ways. -/
theorem exec_sched {c : Instr} {s t : State} (hx : exec c s = .next t) : s.sched.Move t.sched := by
  by_cases hw : .sched ∈ c.writes
  case neg => exact .kept (by rw [(exec_keepsBut hx).sched hw])
  by_cases hreset : c.writes = Block.all
  case pos =>
    obtain ⟨-, -, -, -, -, -, hs, -⟩ | ⟨-, -, -, -, -, -, hs, -⟩ := exec_reset_context hreset hx
    · exact .kept (by rw [hs])
    · exact .reset hs
  by_cases hedge : c.writes = Block.ofEdge
  case pos =>
    obtain hk | ⟨x, kind, hk, -, -, rfl⟩ := exec_edge_cases hedge hx
    · exact .kept (by rw [hk.sched (by simp)])
    · simpa [← hk.sched (by simp)] using x.makeEdge_move kind
  case neg =>
    have hreq (hc : c.asRequest.isSome = true) (ha : ∀ x : State, x.sched.Move (c.act x).state.sched) :
        s.sched.Move t.sched := by
      obtain hs | ⟨x, hs, -, ht⟩ := exec_request_cases hx hc
      · exact .kept (by rw [(hs.keepsBut []).sched (by simp)])
      · rw [(ht.keepsBut []).sched (by simp), ← (hs.keepsBut []).sched (by simp)]
        exact ha x
    cases c <;> simp [Instr.writes, Block.all, Block.ofEdge] at hw hreset hedge
    case postChange => exact hreq rfl fun x => actPostChange_move ..
    case withdrawChange => exact hreq rfl fun x => actWithdrawChange_move ..
    case setZone => exact hreq rfl fun x => actSetZone_move ..
    case selectZone => exact hreq rfl fun x => actSelectZone_move ..

/-! ## The order of the table (R65) -/

theorem Entry.before_iff (x y : Entry) : x.before y = true ↔
    x.e < y.e ∨ (x.e = y.e ∧ x.isLeap = true ∧ y.isLeap = false) := by
  simp [Entry.before, and_assoc]

/-- The table order is a weak order: an entry placed before `y` goes before all that `y` goes before. -/
theorem Entry.not_before_of_before {x y z : Entry} (hxy : x.before y = true) (hzy : z.before y = false) :
    z.before x = false := by
  rw [Entry.before_iff] at hxy
  rw [← Bool.not_eq_true, Entry.before_iff] at hzy ⊢
  rintro (h | ⟨h, hz, hx⟩)
  · exact hzy (.inl (by omega))
  · rcases hxy with hxy | ⟨he, hl, -⟩
    · exact hzy (.inl (by omega))
    · simp [hl] at hx

theorem Entry.not_before_self_of_before {x y : Entry} (hxy : x.before y = true) : y.before x = false := by
  rw [Entry.before_iff] at hxy
  rw [← Bool.not_eq_true, Entry.before_iff]
  rintro (h | ⟨h, hy, hx⟩)
  · omega
  · rcases hxy with hxy | ⟨-, hl, -⟩
    · omega
    · simp [hl] at hx

/-- A clash of two entries is one of both (R65, R71). -/
theorem Entry.conflicts_comm (x y : Entry) : x.conflicts y = y.conflicts x := by
  rw [Bool.eq_iff_iff, Entry.conflicts_iff, Entry.conflicts_iff]
  by_cases hx : x.kind = .zoneChange <;> by_cases hy : y.kind = .zoneChange <;> simp [hx, hy] <;> grind

/-- An entry inserted in its place keeps a table in order. -/
theorem insertEntry_pairwise_before {xs : List Entry} (h : xs.Pairwise fun x y => y.before x = false)
    (x : Entry) : (insertEntry x xs).Pairwise fun x y => y.before x = false := by
  obtain ⟨before, rest, rfl, hins, hb, hr⟩ := insertEntry_split x xs
  rw [hins]
  obtain ⟨hbefore, hrest, hacross⟩ := List.pairwise_append.mp h
  refine List.pairwise_append.mpr ⟨hbefore, List.pairwise_cons.mpr ⟨fun z hz => ?_, hrest⟩,
    fun a ha z hz => ?_⟩
  · cases rest with
    | nil => simp at hz
    | cons y ys =>
      have hxy := hr y rfl
      rcases List.mem_cons.mp hz with rfl | hz
      · exact Entry.not_before_self_of_before hxy
      · exact Entry.not_before_of_before hxy ((List.pairwise_cons.mp hrest).1 z hz)
  · rcases List.mem_cons.mp hz with rfl | hz
    · exact hb a ha
    · exact hacross a ha z hz

theorem mem_insertEntry {x z : Entry} {xs : List Entry} : z ∈ insertEntry x xs ↔ z = x ∨ z ∈ xs := by
  obtain ⟨before, rest, rfl, hins, -, -⟩ := insertEntry_split x xs
  rw [hins]
  simp only [List.mem_append, List.mem_cons]
  tauto

/-- An entry that clashes with none keeps a table's entries apart wherever it goes. -/
theorem insertEntry_pairwise_apart {xs : List Entry} (h : xs.Pairwise fun x y => y.conflicts x = false)
    {x : Entry} (hx : ∀ y ∈ xs, x.conflicts y = false) :
    (insertEntry x xs).Pairwise fun x y => y.conflicts x = false := by
  obtain ⟨before, rest, rfl, hins, -, -⟩ := insertEntry_split x xs
  rw [hins]
  obtain ⟨hbefore, hrest, hacross⟩ := List.pairwise_append.mp h
  refine List.pairwise_append.mpr ⟨hbefore, List.pairwise_cons.mpr ⟨fun z hz => ?_, hrest⟩,
    fun a ha z hz => ?_⟩
  · rw [Entry.conflicts_comm]
    exact hx z (by simp [hz])
  · rcases List.mem_cons.mp hz with rfl | hz
    · exact hx a (by simp [ha])
    · exact hacross a ha z hz

/-- The processing changes neither the effective instant nor what an entry clashes with. -/
@[simp] theorem Entry.before_atFrame (x y : Entry) (f : Nat) :
    (x.atFrame f).before (y.atFrame f) = x.before y := rfl

@[simp] theorem Entry.conflicts_atFrame (x y : Entry) (f : Nat) :
    (x.atFrame f).conflicts (y.atFrame f) = x.conflicts y := rfl

/-- The zone after the processing is one named before it. -/
theorem Schedule.Ordered.zoneAt {t : Schedule} (h : t.Ordered) (f : Nat) : t.zoneAt f ≤ 3 := by
  have hstart : t.pendingZone.getD t.zone ≤ 3 := by
    cases hp : t.pendingZone with
    | none => exact h.zone
    | some z => exact h.pendingZone z hp
  have hfold (xs : List Entry) (hxs : ∀ x ∈ xs, ∀ z, x.newZone = some z → z ≤ 3) (z : Nat) (hz : z ≤ 3) :
      xs.foldl (fun z x => x.newZone.getD z) z ≤ 3 := by
    induction xs generalizing z with
    | nil => exact hz
    | cons x xs ih =>
      refine ih (fun y hy => hxs y (by simp [hy])) _ ?_
      cases hn : x.newZone with
      | none => simpa [hn] using hz
      | some w => simpa [hn] using hxs x (by simp) w hn
  exact hfold _ (fun x hx => h.newZones x (List.mem_of_mem_filter hx)) _ hstart

theorem Schedule.Ordered.process {t : Schedule} (h : t.Ordered) (f day sec : Nat) :
    (t.process f day sec).Ordered where
  order := List.pairwise_map.mpr ((h.order.filter _).imp fun hb => hb)
  apart := List.pairwise_map.mpr ((h.apart.filter _).imp fun hc => hc)
  zone := h.zoneAt f
  pendingZone z hz := by cases hz
  newZones x hx z hz := by
    obtain ⟨y, hy, rfl⟩ := List.mem_map.mp hx
    exact h.newZones y (List.mem_of_mem_filter hy) z hz

theorem Schedule.Ordered.of_table {t t' : Schedule} (h : t.Ordered) (e : t'.table = t.table) :
    t'.Ordered := by
  simp only [Schedule.table, Prod.mk.injEq] at e
  obtain ⟨he, -, hz, hp⟩ := e
  exact ⟨he ▸ h.order, he ▸ h.apart, hz ▸ h.zone, hp ▸ h.pendingZone, he ▸ h.newZones⟩

theorem Schedule.reset_ordered : Schedule.reset.Ordered := by
  constructor <;> simp [Schedule.reset]

/-- Each way in which the schedule moves keeps its order. -/
theorem Schedule.Ordered.move {t t' : Schedule} (h : t.Ordered) (m : t.Move t') : t'.Ordered := by
  cases m with
  | kept e => exact h.of_table e
  | posted x hc hl hz e =>
    refine Schedule.Ordered.of_table (t := { t with entries := insertEntry x t.entries }) ?_ e
    exact ⟨insertEntry_pairwise_before h.order x,
      (insertEntry_pairwise_apart (h.apart.imp fun {a b} hab => Entry.conflicts_comm a b ▸ hab) hc).imp
        fun {a b} hab => Entry.conflicts_comm b a ▸ hab,
      h.zone, h.pendingZone, fun y hy => (mem_insertEntry.mp hy).elim (fun e => e ▸ hz) (h.newZones y)⟩
  | withdrawn p r e =>
    refine Schedule.Ordered.of_table
      (t := { t with entries := t.entries.filter p, retired := keepLast 8 (t.retired ++ [r]) }) ?_ e
    exact ⟨h.order.filter _, h.apart.filter _, h.zone, h.pendingZone,
      fun x hx => h.newZones x (List.mem_of_mem_filter hx)⟩
  | selected z hz e =>
    refine Schedule.Ordered.of_table (t := { t with pendingZone := some z }) ?_ e
    exact ⟨h.order, h.apart, h.zone, fun w hw => Option.some.inj hw ▸ hz, h.newZones⟩
  | processed f day sec e => exact (h.process f day sec).of_table e
  | reset e => exact e ▸ Schedule.reset_ordered

end Sys2Proof.Machine

namespace Sys2Proof

open Sys2Proof.Machine

/-- Settles O45: every way in which the schedule moves keeps the table in order. -/
theorem scheduleStaysOrdered : Obligations.ScheduleStaysOrdered :=
  fun _ _ h hs => step_keeps (P := fun x => x.sched.Ordered) (fun _ _ => id)
    (fun _ _ _ h hx => h.move (exec_sched hx)) h hs

end Sys2Proof

/-! Discipline, acquisition and phase step under every command (R30..R37, R46, R51): each leaves them in
agreement with the selection. -/

namespace Sys2Proof.Machine

/-- Blocks that stay steer alike. -/
theorem State.SteersAlike.of_blocks {s t : State} (h : s.SameBlocks t) : State.SteersAlike s t :=
  have hk := h.keepsBut []
  .of_eq (hk.ref1 (by simp)) (hk.ref2 (by simp)) (hk.sel (by simp)) (hk.tb (by simp))
    (by rw [hk.key (by simp)]; exact id)

theorem State.Steered.of_sameBlocks (s t : State) (h : s.SameBlocks t) (hs : s.Steered) : t.Steered :=
  (State.SteersAlike.of_blocks h).steered hs

theorem State.steered_settle {s : State} (h : s.Steered) : s.settle.Steered :=
  .of_sameBlocks s _ s.settle_sameBlocks h

/-! ## The requests to the references (R51, R56, R57) -/

/-- The selector's mode and stored choice do not steer. -/
theorem State.Followable.setSel {s : State} (h : State.Followable s) (x : Selector) :
    State.Followable { s with sel := x } := ⟨h.ref1, h.ref2, h.unset, h.acq, h.step⟩

theorem actSelectReference_steered {s : State} (h : s.Steered) (choice : Octet) :
    (actSelectReference choice s).state.Steered := by
  unfold actSelectReference
  split
  · exact h
  · split
    · exact h
    · exact State.select_steered ((State.Followable.of_steered h).setSel _) _

theorem actSetSelectMode_steered {s : State} (h : s.Steered) (mode : Octet) :
    (actSetSelectMode mode s).state.Steered := by
  unfold actSetSelectMode
  split
  · exact h
  · split
    · exact h
    · split
      · exact State.select_steered ((State.Followable.of_steered h).setSel _) _
      · exact State.select_steered ((State.Followable.of_steered h).setSel _) _

theorem Port.eq_or_other (p q : Port) : q = p ∨ q = p.other := by
  cases p <;> cases q <;> simp [Port.other]

/-- A port put into an enabled state leaves what following the selection takes for granted. -/
theorem State.Followable.setPort {s : State} (h : State.Followable s) (p : Port) {r : RefPort}
    (hr : r.Enabled) : State.Followable (s.setPort p r) := by
  cases p
  · exact ⟨hr, h.ref2, h.unset, h.acq, h.step⟩
  · exact ⟨h.ref1, hr, h.unset, h.acq, h.step⟩

theorem State.Followable.movePort {s : State} (h : State.Followable s) (p : Port) {r : RefPort}
    (hr : r.Enabled) : State.Followable (s.movePort p r) := by
  have hp := h.setPort p hr
  exact ⟨by simpa using hp.ref1, by simpa using hp.ref2, by simpa using h.unset, by simpa using h.acq,
    by simpa using h.step⟩

theorem State.Steered.port {s : State} (h : s.Steered) (p : Port) : (s.port p).Enabled := by
  cases p
  · exact h.ref1
  · exact h.ref2

theorem State.qualified_congr {s t : State} {p : Port} (h : (t.port p).st = (s.port p).st) :
    t.qualified p = s.qualified p := by
  rw [State.qualified, State.qualified, h]

theorem State.steering_congr {s t : State} (h : ∀ p, (t.port p).st = (s.port p).st)
    (hs : t.sel.selection = s.sel.selection) : t.steering = s.steering := by
  simp only [State.steering, hs, State.qualified_congr (h _)]

/-- A port whose enable is off steers nothing, before it is turned on and after. -/
theorem State.turnOn_steered {s : State} (h : s.Steered) {p : Port} (he : (s.port p).enable = false) :
    (s.setPort p (s.port p).turnOn).Steered := by
  obtain ⟨hdis, hwatch⟩ := h.port p
  have hst : (s.port p).st = .disabled := hdis.mp he
  have hon : (s.port p).turnOn.Enabled := ⟨by simp [RefPort.turnOn], fun hd => by simp [RefPort.turnOn] at hd⟩
  have hf := (State.Followable.of_steered h).setPort p hon
  have hq (q : Port) : (s.setPort p (s.port p).turnOn).qualified q = s.qualified q := by
    unfold State.qualified
    rw [decide_eq_decide]
    obtain rfl | rfl := Port.eq_or_other p q
    · simp [RefPort.turnOn, hst]
    · simp
  have hsteer : (s.setPort p (s.port p).turnOn).steering = s.steering := by
    simp [State.steering, hq]
  exact ⟨hf.ref1, hf.ref2, by simpa [hsteer] using h.locked, by simpa using h.unset,
    by simpa [hsteer] using h.acquiring, by simpa using h.step⟩

theorem actSetRefEnable_steered {s : State} (h : s.Steered) (port setting : Octet) :
    (actSetRefEnable port setting s).state.Steered := by
  unfold actSetRefEnable
  split
  case h_1 p _ _ =>
    split
    case isTrue => exact h
    case isFalse he => exact State.turnOn_steered h (by simpa using he)
  case h_2 p _ _ =>
    split
    · exact h
    · split
      · refine State.portsMoved_steered ((State.Followable.of_steered h).movePort p ?_) s
        exact ⟨by simp [RefPort.turnOff, RefPort.moveTo], fun _ => rfl⟩
      · exact h
  case h_3 => exact h

/-! ## The other requests and the sources (R21, R34, R38, R119) -/

theorem actStepTime_steered {s : State} (h : s.Steered) (day : BitVec 16) (second : BitVec 24) :
    (actStepTime day second s).state.Steered := by
  unfold actStepTime
  split
  · exact h
  · split
    · exact h
    · exact State.SteersAlike.steered (s := s) (by constructor <;> simp) h

/-- A mode of SET_MODE abandons a phase step where it brings the keyer near TIME_CODE (R34, R119). -/
theorem actSetMode_steersAlike (s : State) (o : Octet) :
    State.SteersAlike s (actSetMode o s).state := by
  have hdrop (k : Keyer) (hm : k.mode = s.key.mode) (hp : k.pendingMode = none) :
      State.SteersAlike s { s with key := k } :=
    .of_eq rfl rfl rfl rfl fun hn => by
      simp only [Keyer.nearTimeCode, Bool.or_eq_false_iff] at hn ⊢
      simp [hm, hp, hn.1]
  cases hm : modeOf o with
  | none => rw [actSetMode_badArgument hm]; exact .refl s
  | some m =>
    by_cases ho : m = .offAir
    · subst ho
      by_cases hk : s.key.mode = .offAir
      · rw [actSetMode_offAir_off hm hk]; exact hdrop _ rfl rfl
      · rw [actSetMode_offAir_on hm hk]; exact hdrop _ rfl rfl
    · rw [actSetMode_onAir hm ho]
      by_cases hs : s.key.mode = m
      · rw [State.requestOnAir_same hs]; exact hdrop _ rfl rfl
      · by_cases hc : s.onAirChecks m = true
        · rw [State.requestOnAir_pending hs hc]
          refine ⟨by simp, by simp, rfl, by simp, fun hw => ?_⟩
          simp only [Acted.state_plain, Bool.and_eq_true, decide_eq_true_eq] at hw
          refine ⟨hw.1, fun hn => ?_⟩
          simp only [Keyer.nearTimeCode, Bool.or_eq_false_iff] at hn ⊢
          exact ⟨hn.1, by simpa using hw.2⟩
        · rw [State.requestOnAir_notReady hs hc]; exact .refl s

theorem State.kill_steersAlike (s : State) : State.SteersAlike s s.kill := by
  refine (s.changeMode_steersAlike .offAir).trans (.of_eq rfl rfl rfl rfl fun _ => ?_)
  simp [Keyer.nearTimeCode, State.kill, Keyer.dropOffReq]

theorem actMaintenance_steersAlike (s : State) (day minute : BitVec 16) :
    State.SteersAlike s (actMaintenance day minute s).state := by
  simp only [actMaintenance]
  repeat' split
  all_goals refine .of_eq rfl rfl rfl rfl fun hn => ?_
  all_goals simp_all [Keyer.nearTimeCode, Keyer.waitOffAir]

theorem Timebase.sourceChange_discipline (t : Timebase) (src : Source) :
    (t.sourceChange src).timeSet = t.timeSet ∧ (t.sourceChange src).acq = t.acq ∧
      (t.sourceChange src).stepWaiting = t.stepWaiting ∧
      ((t.sourceChange src).disc = .locked ↔ t.disc = .locked) ∧
      (t.disc = .free → (t.sourceChange src).disc = .free) := by
  unfold Timebase.sourceChange
  cases hd : t.disc <;> simp [Timebase.emptyWindow]

theorem State.sourceChange_steered {s : State} (h : s.Steered) (src : Source) :
    (s.sourceChange src).Steered := by
  obtain ⟨hset, hacq, hstep, hlock, hfree⟩ := s.tb.sourceChange_discipline src
  have htb : (s.sourceChange src).tb = s.tb.sourceChange src := by simp [State.sourceChange]
  have hsteer : (s.sourceChange src).steering = s.steering := by
    refine State.steering_congr (fun p => ?_) (by simp [State.sourceChange])
    cases p <;> simp [State.sourceChange]
  refine ⟨by simpa using h.ref1, by simpa using h.ref2, ?_, ?_, ?_, ?_⟩
  · rw [htb, hsteer, hlock, hset]; exact h.locked
  · rw [htb, hset]; exact fun hu => hfree (h.unset hu)
  · rw [htb, hsteer, hset, hacq]; exact h.acquiring
  · rw [htb, hstep, hlock]; simpa using h.step

/-! ## The ports (R44, R46) -/

theorem RefPort.octet_st (r : RefPort) (now : Nat) (o : Octet) :
    (r.octet now o).st = r.st ∧ (r.octet now o).enable = r.enable ∧ (r.octet now o).watch = r.watch := by
  have hdone (msg : List Octet) : (r.messageDone msg).st = r.st ∧
      (r.messageDone msg).enable = r.enable ∧ (r.messageDone msg).watch = r.watch := by
    unfold RefPort.messageDone
    repeat' split
    all_goals exact ⟨rfl, rfl, rfl⟩
  unfold RefPort.octet
  repeat' split
  · exact ⟨rfl, rfl, rfl⟩
  · exact ⟨rfl, rfl, rfl⟩
  · exact ⟨rfl, rfl, rfl⟩
  · exact ⟨rfl, rfl, rfl⟩
  · exact hdone (r.rx ++ [o])

/-- A port that keeps its state, its enable and its watch steers as before. -/
theorem State.setPort_steersAlike (s : State) (p : Port) {r : RefPort} (hs : r.st = (s.port p).st)
    (he : r.enable = (s.port p).enable)
    (hw : r.watch = (s.port p).watch ∨ r.st ≠ .disabled) : State.SteersAlike s (s.setPort p r) := by
  cases p
  · exact ⟨⟨he, hs, .inr hw⟩, by simp [State.setPort], rfl, by simp [State.setPort],
      fun h => ⟨h, id⟩⟩
  · exact ⟨by simp [State.setPort], ⟨he, hs, .inr hw⟩, rfl, by simp [State.setPort],
      fun h => ⟨h, id⟩⟩

theorem RefPort.watchOut_enabled {r : RefPort} (h : r.Enabled) (hw : r.watch.isSome = true) (now : Nat) :
    (r.watchOut now).Enabled := by
  have hst : r.st ≠ .disabled := fun hd => by simp [h.2 hd] at hw
  have hen : r.enable ≠ false := fun he => hst (h.1.mp he)
  simp only [RefPort.watchOut]
  split
  · exact ⟨by simp [hst, hen], fun hd => absurd hd hst⟩
  · exact ⟨by simp [hen, RefPort.moveTo], fun hd => by simp [RefPort.moveTo] at hd⟩

/-- A pulse of an enabled port makes an ABSENT one a CANDIDATE, which steers nothing either. -/
theorem RefPort.pulse_st (r : RefPort) (window now : Nat) :
    (r.pulse window now).st = (if r.st = .absent then .candidate else r.st) ∧
      (r.pulse window now).enable = r.enable := by
  unfold RefPort.pulse RefPort.present
  split <;> simp [RefPort.moveTo]

theorem State.pulse_steered {s : State} (h : s.Steered) {p : Port} (hd : (s.port p).st ≠ .disabled)
    (window now : Nat) : (s.setPort p ((s.port p).pulse window now)).Steered := by
  obtain ⟨hst, hen⟩ := (s.port p).pulse_st window now
  have hpulse : ((s.port p).pulse window now).Enabled := by
    obtain ⟨hdis, -⟩ := h.port p
    refine ⟨?_, fun hx => ?_⟩
    · rw [hen, hst, hdis]
      split <;> simp_all
    · rw [hst] at hx
      split at hx <;> simp_all
  have hf := (State.Followable.of_steered h).setPort p hpulse
  have hsteer : (s.setPort p ((s.port p).pulse window now)).steering = s.steering := by
    have hq (q : Port) :
        (s.setPort p ((s.port p).pulse window now)).qualified q = s.qualified q := by
      unfold State.qualified
      rw [decide_eq_decide]
      obtain rfl | rfl := Port.eq_or_other p q
      · simp only [State.port_setPort, hst]
        split <;> simp_all
      · simp
    simp [State.steering, hq]
  exact ⟨hf.ref1, hf.ref2, by simpa [hsteer] using h.locked, by simpa using h.unset,
    by simpa [hsteer] using h.acquiring, by simpa using h.step⟩

theorem State.pushOpen_steersAlike (s : State) (p : Port) (u : OpenPulse) :
    State.SteersAlike s (s.pushOpen p u) := s.setPort_steersAlike p rfl rfl (.inl rfl)

theorem State.pulseNow_steered {s : State} (h : s.Steered) (p : Port) (u : OpenPulse) :
    (s.pulseNow p u).Steered := by
  have hf : State.Followable (s.correct p (s.offsetOf u.at_)) :=
    (State.Followable.of_steered h).carry (by simp) (by simp) (by simp) (by simp) (by simp) (by simp)
      (by simp)
  exact (State.judgeAgreement_steersAlike _).steered ((State.slewOnEntry_steersAlike _ _ _).steered
    (State.portsMoved_steered (State.completePulse_followable hf p u _) _))

/-- A pulse acquires only where acquisition waits on its port, which steers then. -/
theorem State.acquisitionLabel_steers {s : State} (h : s.Steered) {p : Port} {u : OpenPulse} {x : Label}
    (hl : s.acquisitionLabel p u = some x) : s.tb.timeSet = false ∧ s.steering.isSome = true := by
  unfold State.acquisitionLabel at hl
  split at hl
  case isTrue hc =>
    simp only [Bool.and_eq_true, Bool.not_eq_true', decide_eq_true_eq] at hc
    obtain ⟨hu, ha⟩ := hc
    rw [h.acquiring, hu] at ha
    exact ⟨hu, by simp_all⟩
  case isFalse => cases hl

theorem State.pulseEffects_steered {s : State} (h : s.Steered) (p : Port) (u : OpenPulse) :
    (s.pulseEffects p u).Steered := by
  have hpush := (s.pushOpen_steersAlike p u).steered h
  unfold State.pulseEffects
  split
  case h_1 label hl =>
    obtain ⟨hu, hs⟩ := State.acquisitionLabel_steers h hl
    refine State.makeEdge_steered hpush _ fun _ _ => ⟨by simpa using hu, ?_⟩
    rw [(s.pushOpen_steersAlike p u).steering]
    exact hs
  case h_2 =>
    split
    · exact State.makeEdge_steered hpush _ (fun _ he => by cases he)
    · split
      · exact State.pulseNow_steered h p u
      · exact hpush

/-- Every command leaves discipline, acquisition and phase step in agreement with the selection. -/
theorem exec_steered {c : Instr} {s t : State} (h : s.Steered) (hx : exec c s = .next t) : t.Steered := by
  have hsame (x : State) (h1 : x.ref1 = s.ref1) (h2 : x.ref2 = s.ref2) (h3 : x.sel = s.sel)
      (h4 : x.tb = s.tb) (h5 : x.key = s.key) : x.Steered :=
    (State.SteersAlike.of_eq h1 h2 h3 h4 (by rw [h5]; exact id)).steered h
  have hwait (dt : Nat) : (s.wait dt).Steered := hsame _ rfl rfl rfl rfl rfl
  have huntil (n : Nat) : (s.waitUntil n).Steered := hsame _ rfl rfl rfl rfl rfl
  have hk := exec_keepsBut hx
  by_cases hreset : c.writes = Block.all
  case pos =>
    obtain ⟨-, htb, h1, h2, hs, -, -, -, hkey, -⟩ | ⟨-, ⟨src, htb⟩, h1, h2, hs, -⟩ :=
      exec_reset_context hreset hx
    · exact hsame t h1 h2 hs htb hkey
    · have hsteer : t.steering = none := by simp [State.steering, hs, Selector.reset]
      refine ⟨h1 ▸ ?_, h2 ▸ ?_, ?_, ?_, ?_, ?_⟩
      · simp [RefPort.Enabled, RefPort.reset]
      · simp [RefPort.Enabled, RefPort.reset]
      all_goals simp [htb, hsteer, Timebase.reset]
  have hP := State.Steered.of_sameBlocks
  cases c <;> simp [Instr.writes, Block.all, Block.ofEdge] at hreset
  case selectReference => exact exec_request_keeps hP hx rfl h fun x hx => actSelectReference_steered hx _
  case setSelectMode => exact exec_request_keeps hP hx rfl h fun x hx => actSetSelectMode_steered hx _
  case setRefEnable => exact exec_request_keeps hP hx rfl h fun x hx => actSetRefEnable_steered hx _ _
  case stepTime => exact exec_request_keeps hP hx rfl h fun x hx => actStepTime_steered hx _ _
  case setMode =>
    exact exec_request_keeps hP hx rfl h fun x hx => (actSetMode_steersAlike x _).steered hx
  case killCarrier => exact exec_request_keeps hP hx rfl h fun x hx => x.kill_steersAlike.steered hx
  case maintenance =>
    exact exec_request_keeps hP hx rfl h fun x hx => (actMaintenance_steersAlike x _ _).steered hx
  case setHold l tag o =>
    refine exec_request_keeps hP hx rfl h fun x hs => ?_
    simp only [Instr.act, actSetHold]
    split
    · exact hs
    · refine State.SteersAlike.steered (s := x) ?_ hs
      exact .of_eq rfl rfl rfl rfl id
  case markIntervalEnd =>
    obtain rfl := Host.Outcome.next.inj hx
    split
    · exact h
    · split
      · exact h
      · refine State.SteersAlike.steered (s := s) ?_ h
        exact .of_eq rfl rfl rfl rfl id
  case freqInAbsent n dt =>
    obtain rfl := Host.Outcome.next.inj hx
    dsimp only
    split
    · exact hsame _ rfl rfl rfl rfl rfl
    · refine State.steered_settle (State.sourceChange_steered ?_ _)
      exact hsame _ rfl rfl rfl rfl rfl
  case freqInReturn =>
    obtain rfl := Host.Outcome.next.inj hx
    split
    · exact h
    · exact State.steered_settle (State.sourceChange_steered (huntil _) _)
  case secondEdge =>
    obtain rfl := Host.Outcome.next.inj hx
    dsimp only
    split
    · exact h
    · split
      · exact huntil _
      · exact State.steered_settle (State.makeEdge_steered (huntil _) _ fun _ he => by cases he)
  case phaseStepHoldExpiry =>
    obtain rfl := Host.Outcome.next.inj hx
    split
    · exact h
    · have habandon : State.SteersAlike (s.waitUntil (s.tb.due + halfSecond))
          (s.waitUntil (s.tb.due + halfSecond)).abandonStep := by
        constructor <;> simp [State.abandonStep]
      exact State.steered_settle
        (State.makeEdge_steered (habandon.steered (huntil _)) _ fun _ he => by cases he)
  case refPulse p dt =>
    obtain rfl := Host.Outcome.next.inj hx
    dsimp only
    split
    case isTrue => exact hwait dt
    case isFalse hd =>
      simp only [Bool.or_eq_true, decide_eq_true_eq, not_or] at hd
      exact State.steered_settle (State.pulseEffects_steered (State.pulse_steered (hwait dt) hd.2 _ _) p _)
  case refMessage p octets dt =>
    obtain rfl := Host.Outcome.next.inj hx
    split
    · exact hwait dt
    · obtain ⟨hs, he, hw⟩ := foldl_keeps
        (P := fun r : RefPort => r.st = ((s.wait dt).port p).st ∧
          r.enable = ((s.wait dt).port p).enable ∧ r.watch = ((s.wait dt).port p).watch)
        (fun r o hr => by
          obtain ⟨h1, h2, h3⟩ := r.octet_st (s.wait dt).now o
          rwa [h1, h2, h3]) octets ((s.wait dt).port p) ⟨rfl, rfl, rfl⟩
      exact (State.setPort_steersAlike _ p hs he (.inl hw)).steered (hwait dt)
  case refMsgGapExpiry p =>
    obtain rfl := Host.Outcome.next.inj hx
    split
    · exact h
    · exact (State.setPort_steersAlike (s.waitUntil (s.port p).rxGapAt) p
        (r := (s.port p).dropMessage) rfl rfl (.inl rfl)).steered (huntil _)
  case refMsgFramingError p dt =>
    obtain rfl := Host.Outcome.next.inj hx
    split
    · exact hwait dt
    · exact (State.setPort_steersAlike (s.wait dt) p (r := ((s.wait dt).port p).dropMessage) rfl rfl
        (.inl rfl)).steered (hwait dt)
  case pulseWatchExpiry p =>
    obtain rfl := Host.Outcome.next.inj hx
    split
    case h_1 => exact h
    case h_2 n hw =>
      split
      · exact h
      · refine State.steered_settle (State.portsMoved_steered
          ((State.Followable.of_steered (huntil n)).movePort p ?_) _)
        exact RefPort.watchOut_enabled ((huntil n).port p) (by
          have : ((s.waitUntil n).port p).watch = some n := hw
          simp [this]) _
  all_goals
    exact hsame t (hk.ref1 (by simp [Instr.writes])) (hk.ref2 (by simp [Instr.writes]))
      (hk.sel (by simp [Instr.writes])) (hk.tb (by simp [Instr.writes]))
      (hk.key (by simp [Instr.writes]))

end Sys2Proof.Machine

namespace Sys2Proof

open Sys2Proof.Machine

/-- Settles O23: what moves the ports, the selection or the time state lets the timebase follow. -/
theorem disciplineFollowsTheSelection : Obligations.DisciplineFollowsTheSelection :=
  fun _ _ h hs => step_keeps (P := State.Steered)
    (fun _ _ h => ⟨h.ref1, h.ref2, h.locked, h.unset, h.acquiring, h.step⟩)
    (fun _ _ _ => exec_steered) h hs

end Sys2Proof

/-! The power-on reset state, the queue, and the line events of the keyer. -/

namespace Sys2Proof.Machine

/-! ## The reset state meets the invariants -/

theorem State.reset_conditionsExact : State.reset.ConditionsExact := fun _ => by decide

theorem State.reset_viewsHoldActive : State.reset.ViewsHoldActive := by
  unfold State.ViewsHoldActive
  decide

/-- Every default lies in its range (R216). -/
theorem Params.reset_inRange (id : Nat) (r : ParamRow) (h : paramTable[id]? = some r) :
    r.lo ≤ Params.reset.get id ∧ Params.reset.get id ≤ r.hi := by
  have hrows : ∀ i : Fin paramTable.length,
      paramTable[i].lo ≤ Params.reset.get i ∧ Params.reset.get i ≤ paramTable[i].hi := by decide
  obtain ⟨hlt, rfl⟩ := List.getElem?_eq_some_iff.mp h
  exact hrows ⟨id, hlt⟩

theorem Params.reset_default :
    ∀ i : Fin paramTable.length, Params.reset.get i = paramTable[i].default := by decide

theorem State.reset_bounded : State.reset.Bounded where
  linkA := ⟨by decide, by decide⟩
  linkB := ⟨by decide, by decide⟩
  entries := by decide
  retired := by decide
  text0 := by decide
  text1 := by decide
  history := by decide
  queue := by decide
  collection := fun _ h => by cases h
  octets := by decide
  hunt := by decide
  rxText := by decide
  params := Params.reset_inRange

theorem RefPort.reset_enabled : RefPort.reset.Enabled := ⟨by decide, by decide⟩

theorem State.reset_steered : State.reset.Steered where
  ref1 := RefPort.reset_enabled
  ref2 := RefPort.reset_enabled
  locked := by decide
  unset := by decide
  acquiring := by decide
  step := by decide

theorem RefPort.reset_labels : RefPort.reset.LabelsInRange := fun _ h => by cases h

theorem State.reset_timeInRange : State.reset.TimeInRange where
  day := by decide
  sec := by decide
  minLen := by decide
  handed := fun _ h => by cases h
  pendingStep := fun _ h => by cases h
  labels := ⟨RefPort.reset_labels, RefPort.reset_labels⟩
  freeSec := by decide
  freeMin := by decide
  trim := by decide
  k := by decide
  winCount := by decide
  holdAge := by decide

theorem State.reset_carrierMade : State.reset.CarrierMade := ⟨by decide, by decide⟩

theorem State.reset_busOrdered : State.reset.BusOrdered where
  idle := by decide
  scan := fun x h _ => by
    obtain rfl := Option.some.inj h
    decide
  relay := fun x h hs => by
    obtain rfl := Option.some.inj h
    cases hs
  attempts := fun x h => by
    obtain rfl := Option.some.inj h
    decide
  range := by decide
  queued := fun _ h => by cases h

theorem State.reset_selected : State.reset.Selected where
  manual := by decide
  auto := fun _ _ h => by cases h
  enabled := fun _ h => by cases h

theorem State.reset_framesInOrder : State.reset.FramesInOrder where
  history := .nil
  current := fun _ h => by cases h
  past := fun _ h => by cases h

/-! ## A selection that no step makes

The invariant `Selected` does not say that a port is DISABLED while its enable is off (`Steered` does);
turning such a port on makes it ABSENT, be it QUALIFIED or not, and the selection stays on it. -/

/-- Port 1 QUALIFIED with its enable off, selected in AUTO, and a request that turns it on. -/
def qualifiedWhileOff : State :=
  { State.reset with
    ref1 := { RefPort.reset with enable := false, st := .qualified }
    sel := { Selector.reset with selection := some .p1 }
    pending := [.setRefEnable .a 0 1 1] }

theorem qualifiedWhileOff_selected : qualifiedWhileOff.Selected where
  manual := by decide
  auto := fun _ p h => by
    obtain rfl := Option.some.inj h
    rfl
  enabled := fun p h => by
    obtain rfl := Option.some.inj h
    decide

/-- What SET_REF_ENABLE leaves of it: the port ABSENT, the selection still on it. -/
theorem qualifiedWhileOff_step : ∃ t, step qualifiedWhileOff = .next t ∧
    t.sel.mode = .auto ∧ t.sel.selection = some .p1 ∧ t.ref1.st = .absent :=
  ⟨_, rfl, by decide, by decide, by decide⟩

/-! ## The line events of the keyer -/

theorem State.settle_active (s : State) : s.settle.cond.active = s.activeNow := rfl

/-- A condition is active exactly while its cause holds (R188). -/
theorem State.activeNow_getLsbD (s : State) (i : Nat) :
    s.activeNow.getLsbD i = s.causes.getD i false := BitVec.getLsbD_ofBoolListLE

/-- The hold of a phase step ends past the computed end of the second (R34). -/
theorem State.waitUntil_abandonStep (s : State) :
    (State.waitUntil s.tb.due { s with
      now := max s.now (s.tb.due + 5000000), tb := { s.tb with stepWaiting := false } }) =
      (s.waitUntil (s.tb.due + halfSecond)).abandonStep := by
  have hnow : max (max s.now (s.tb.due + 5000000)) s.tb.due = max s.now (s.tb.due + 5000000) := by
    omega
  exact congrArg (fun n => { s with now := n, tb := { s.tb with stepWaiting := false } }) hnow

/-- With no phase step waiting the count makes the edge. -/
theorem State.exec_secondEdge_noStep {s : State} (hp : s.por = false) (hw : s.tb.stepWaiting = false) :
    exec .secondEdge s = .next ((s.waitUntil s.tb.due).makeEdge .counted).settle := by
  simp [exec, execSecondEdge, hp, hw]

/-- TX_NOT_READY, item 8, is active exactly on air with the transmitter not ready (R114). -/
theorem State.settle_txNotReady (s : State) : s.settle.cond.active.getLsbD 8 = true ↔
    s.key.mode ≠ .offAir ∧ s.transmitterReady = false := by
  rw [State.settle_active, State.activeNow_getLsbD]
  simp [State.causes, Keyer.onAir]

end Sys2Proof.Machine

namespace Sys2Proof

open Sys2Proof.Machine

/-- Refutes O59: a port that is QUALIFIED with its enable off may be selected in AUTO; turning it on makes
it ABSENT and leaves the selection on it. -/
theorem not_boundsAreKept : ¬ Obligations.BoundsAreKept := by
  rintro ⟨-, -, hselected, -⟩
  obtain ⟨t, hs, hmode, hsel, hst⟩ := qualifiedWhileOff_step
  have hq : t.ref1.st = .qualified :=
    (hselected _ t qualifiedWhileOff_selected hs).auto hmode .p1 hsel
  rw [hst] at hq
  cases hq

/-- Settles O60: each invariant by the reset values. -/
theorem resetMeetsTheInvariants : Obligations.ResetMeetsTheInvariants :=
  ⟨State.reset_conditionsExact, State.reset_viewsHoldActive, State.reset_bounded, State.reset_steered,
    State.reset_timeInRange, Keyer.reset_ordered, State.reset_carrierMade, Schedule.reset_ordered,
    State.reset_busOrdered, State.reset_selected, State.reset_framesInOrder⟩

/-- Settles O1: by the two cases of the queue. -/
theorem stepRunsTheFrontCommand : Obligations.StepRunsTheFrontCommand := by
  refine fun s => ⟨fun c rest h => ?_, fun h => ?_⟩
  · simp only [step, h]
  · simp only [step, h]

/-- Settles O4: the reset values, and the masks and views bit by bit. -/
theorem resetHoldsTheStatedValues : Obligations.ResetHoldsTheStatedValues := by
  refine ⟨rfl, rfl, rfl, rfl, rfl, by decide, rfl, rfl, by decide, by decide, rfl, by decide, ?_, ?_,
    by decide, by decide, ?_⟩
  · rintro (_ | _) <;> decide
  · rintro (_ | _) <;> decide
  · intro id r h
    obtain ⟨hlt, rfl⟩ := List.getElem?_eq_some_iff.mp h
    exact Params.reset_default ⟨id, hlt⟩

/-- Settles O20: a counted edge waits for a phase step, whose hold expiry abandons it and makes the edge. -/
theorem phaseStepHoldsTheEdge : Obligations.PhaseStepHoldsTheEdge := by
  refine fun s hp => ⟨fun hw => ⟨?_, ?_⟩, fun hw => ?_⟩
  · simp [exec, execSecondEdge, State.waitUntil, hp, hw]
  · refine ⟨((s.waitUntil (s.tb.due + halfSecond)).abandonStep.makeEdge .counted).settle,
      by simp [exec, execPhaseStepHoldExpiry, hp, hw], ?_⟩
    rw [← State.waitUntil_abandonStep]
    exact State.exec_secondEdge_noStep hp rfl
  · simp [exec, execPhaseStepHoldExpiry, hp, hw]

/-- Settles O38: the mark's next interval, and the level of TX_READY seen at the end of its event. -/
theorem lineEventsOfTheKeyer : Obligations.LineEventsOfTheKeyer := by
  refine ⟨fun s hp i rest hm => ?_, fun s hm => ?_, fun level dt s hp => ?_⟩
  · simp [exec, execMarkIntervalEnd, State.waitUntil, hp, hm]
  · simp [exec, execMarkIntervalEnd, hm]
  · refine ⟨State.settle { s.wait dt with txReady := level }, ?_, ?_, ?_, ?_⟩
    · simp [exec, execTxReadyChange, State.wait, hp]
    · rfl
    · simp [State.transmitterReady]
    · rw [State.settle_txNotReady]
      rfl

end Sys2Proof

/-! The active set and the latched views under every command (R188, R190, R191): events only add to the
views, and the set is brought up to date at their end. -/

namespace Sys2Proof.Machine

/-! ## What the events of a command leave of the views -/

/-- From `c` to `d` the active set stays and no item leaves a view. -/
structure Conditions.Grows (c d : Conditions) : Prop where
  active : d.active = c.active
  views : ∀ l i, (c.view l).getLsbD i = true → (d.view l).getLsbD i = true

@[simp] theorem Conditions.Grows.refl (c : Conditions) : c.Grows c := ⟨rfl, fun _ _ => id⟩

theorem Conditions.Grows.trans {c d e : Conditions} (h : c.Grows d) (g : d.Grows e) : c.Grows e :=
  ⟨g.active.trans h.active, fun l i hi => g.views l i (h.views l i hi)⟩

/-- Adding items, and any change of the counters, the masks and the tick, lets the views grow. -/
theorem Conditions.grows_addToViews (c : Conditions) (items : ItemSet) : c.Grows (c.addToViews items) :=
  ⟨rfl, fun l i hi => by simp [hi]⟩

theorem Conditions.grows_of_eq {c d : Conditions} (ha : d.active = c.active) (hA : d.viewA = c.viewA)
    (hB : d.viewB = c.viewB) : c.Grows d :=
  ⟨ha, fun l i hi => by cases l <;> simpa [Conditions.view, hA, hB] using hi⟩

section
variable {c : Conditions} {s : State}

@[simp] theorem State.raise_grows (h : c.Grows s.cond) (e : Event) : c.Grows (s.raise e).cond :=
  h.trans (s.cond.grows_addToViews _)

@[simp] theorem State.raiseIf_grows (h : c.Grows s.cond) (b : Bool) (e : Event) :
    c.Grows (s.raiseIf b e).cond := by
  cases b
  · exact h
  · exact State.raise_grows h e

@[simp] theorem State.count_grows (h : c.Grows s.cond) (x : Counter) (n : Nat) :
    c.Grows (s.count x n).cond :=
  h.trans (Conditions.grows_of_eq rfl rfl rfl)

@[simp] theorem State.tick_grows (h : c.Grows s.cond) : c.Grows s.tick.cond := by
  have htick : c.Grows s.cond.tick := h.trans (Conditions.grows_of_eq rfl rfl rfl)
  simp [State.tick, htick]

@[simp] theorem State.minuteTick_grows (h : c.Grows s.cond) : c.Grows s.minuteTick.cond := by
  simp only [State.minuteTick]
  repeat' split
  all_goals simp [h]

@[simp] theorem State.countDiscard_grows (h : c.Grows s.cond) (l : Link) :
    c.Grows (s.countDiscard l).cond := by
  cases l <;> exact State.count_grows h _ _

@[simp] theorem State.arrive_grows (h : c.Grows s.cond) (l : Link) (q : Request) :
    c.Grows (s.arrive l q).cond := by
  simp only [State.arrive, State.giveAtOnce]
  repeat' split
  all_goals simp [h]

@[simp] theorem State.rxOctet_grows (h : c.Grows s.cond) (l : Link) (o : Octet) :
    c.Grows (s.rxOctet l o).cond := by
  simp only [State.rxOctet, State.frameArrived, State.rxDiscard]
  repeat' split
  all_goals simp [h]

@[simp] theorem State.ensureTaken_grows (h : c.Grows s.cond) (l : Link) (q : Request) :
    c.Grows (s.ensureTaken l q).cond := by
  unfold State.ensureTaken
  split
  all_goals simp [h]

/-! ### The synthesizer, the schedule and the keyer -/

@[simp] theorem State.setSynth_grows (h : c.Grows s.cond) (y : Synth) : c.Grows (s.setSynth y).cond := by
  simp [State.setSynth, h]

@[simp] theorem State.sourceChange_grows (h : c.Grows s.cond) (x : Source) :
    c.Grows (s.sourceChange x).cond := by
  simp only [State.sourceChange, State.synthSourceChange]
  split
  all_goals simp [h]

@[simp] theorem State.scheduleChanged_grows (h : c.Grows s.cond) : c.Grows s.scheduleChanged.cond :=
  State.raise_grows h _

@[simp] theorem State.processSchedule_grows (h : c.Grows s.cond) (f : Nat) :
    c.Grows (s.processSchedule f).cond := by
  simp only [State.processSchedule]
  split
  · exact State.scheduleChanged_grows h
  · exact h

@[simp] theorem State.changeMode_grows (h : c.Grows s.cond) (m : Mode) :
    c.Grows (s.changeMode m).cond := by
  simp only [State.changeMode]
  split
  · exact h
  · split
    · exact State.raise_grows (by simpa using h) _
    · exact State.raise_grows h _

@[simp] theorem State.boundaryMode_grows (h : c.Grows s.cond) : c.Grows s.boundaryMode.cond := by
  simp only [State.boundaryMode, State.boundaryPending, State.boundaryOffAir, State.boundaryResume]
  repeat' split
  all_goals simp [h]

@[simp] theorem State.takeFrame_grows (h : c.Grows s.cond) : c.Grows s.takeFrame.cond := by
  simp only [State.takeFrame]
  repeat' split
  all_goals simp [h]

@[simp] theorem State.keyerBoundary_grows (h : c.Grows s.cond) : c.Grows s.keyerBoundary.cond := by
  simp [State.keyerBoundary, h]

/-! ### The references and the edge -/

@[simp] theorem State.correct_grows (h : c.Grows s.cond) (p : Port) (o : Int) :
    c.Grows (s.correct p o).cond := by
  simp only [State.correct]
  repeat' split
  all_goals simp [h]

@[simp] theorem State.movePort_grows (h : c.Grows s.cond) (p : Port) (r : RefPort) :
    c.Grows (s.movePort p r).cond := by
  simp only [State.movePort]
  split
  · exact State.count_grows (by simpa using h) _ _
  · simpa using h

@[simp] theorem State.completePulse_grows (h : c.Grows s.cond) (p : Port) (u : OpenPulse) (o : Int) :
    c.Grows (s.completePulse p u o).cond :=
  State.raiseIf_grows (State.movePort_grows h _ _) _ _

@[simp] theorem State.select_grows (h : c.Grows s.cond) (x : Option Port) :
    c.Grows (s.select x).cond := by
  simp [State.select, h]

@[simp] theorem State.portsMoved_grows (h : c.Grows s.cond) (s0 : State) :
    c.Grows (s0.portsMoved s).cond := by
  simp [State.portsMoved, h]

@[simp] theorem State.leapCheck_grows (h : c.Grows s.cond) : c.Grows s.leapCheck.cond := by
  simp [State.leapCheck, h]

@[simp] theorem State.correctOpen_grows (h : c.Grows s.cond) (p : Port) :
    c.Grows (s.correctOpen p).cond :=
  foldl_keeps (P := fun t : State => c.Grows t.cond) (fun _ _ ht => State.correct_grows ht _ _) _ _ h

@[simp] theorem State.completeOpen_grows (h : c.Grows s.cond) (p : Port) :
    c.Grows (s.completeOpen p).cond :=
  foldl_keeps (P := fun t : State => c.Grows t.cond) (fun _ _ ht => State.completePulse_grows ht _ _ _) _ _
    (by simpa using h)

@[simp] theorem State.slewOnEntry_grows (h : c.Grows s.cond) (s0 : State) (known : Port → Bool) :
    c.Grows (s0.slewOnEntry s known).cond := by
  simp only [State.slewOnEntry]
  repeat' split
  all_goals simp [h]

@[simp] theorem State.pulsesAtEdge_grows (h : c.Grows s.cond) (kind : EdgeKind) :
    c.Grows (s.pulsesAtEdge kind).cond := by
  unfold State.pulsesAtEdge
  extract_lets s1 s2 s3
  have h1 : c.Grows s1.cond := by
    simp only [s1]
    split
    · exact State.correctOpen_grows (State.correctOpen_grows h _) _
    · exact h
  have h2 : c.Grows s2.cond :=
    State.portsMoved_grows (State.completeOpen_grows (State.completeOpen_grows h1 _) _) _
  have h3 : c.Grows s3.cond := by
    simp only [s3]
    split
    · exact State.slewOnEntry_grows h2 _ _
    · exact h2
  split
  · simpa using h3
  · exact h3

@[simp] theorem State.composition_grows (h : c.Grows s.cond) : c.Grows s.composition.cond := by
  simp [State.composition, h]

@[simp] theorem State.edgeFinished_grows (h : c.Grows s.cond) : c.Grows s.edgeFinished.cond := by
  unfold State.edgeFinished
  extract_lets s2
  have h2 : c.Grows s2.cond := by
    simp only [s2, State.minuteBoundary]
    split
    all_goals simp [h]
  split
  · exact State.composition_grows h2
  · exact h2

@[simp] theorem State.makeEdge_grows (h : c.Grows s.cond) (kind : EdgeKind) :
    c.Grows (s.makeEdge kind).cond := by
  rw [State.makeEdge_eq]
  refine State.edgeFinished_grows ?_
  have hpulses := State.pulsesAtEdge_grows (s := s.beginEdge kind) h kind
  simpa [State.edgeStarted, State.markBegun] using hpulses

theorem State.pulseNow_grows (h : c.Grows s.cond) (p : Port) (u : OpenPulse) :
    c.Grows (s.pulseNow p u).cond := by
  have hcorrect := State.correct_grows h p (s.offsetOf u.at_)
  have hmoved := State.portsMoved_grows (State.completePulse_grows hcorrect p u (s.offsetOf u.at_))
    (s.correct p (s.offsetOf u.at_))
  simpa [State.pulseNow] using State.slewOnEntry_grows hmoved _ _

@[simp] theorem State.pulseEffects_grows (h : c.Grows s.cond) (p : Port) (u : OpenPulse) :
    c.Grows (s.pulseEffects p u).cond := by
  have hpush : c.Grows (s.pushOpen p u).cond := by simpa using h
  unfold State.pulseEffects
  split
  · exact State.makeEdge_grows hpush _
  · split
    · exact State.makeEdge_grows hpush _
    · split
      · exact State.pulseNow_grows h p u
      · exact hpush

/-! ### The monitor and the bus -/

@[simp] theorem State.verdict_grows (h : c.Grows s.cond) (f : LastFrame) :
    c.Grows (s.verdict f).cond := by
  simp [State.verdict, h]

@[simp] theorem State.judge_grows (h : c.Grows s.cond) (x : Collection) :
    c.Grows (s.judge x).cond := by
  unfold State.judge
  split
  · exact State.verdict_grows h _
  · exact State.raiseIf_grows (State.count_grows (State.verdict_grows h _) _ _) _ _

@[simp] theorem State.assemble_grows (h : c.Grows s.cond) (x : Symbol) (start : Instant) :
    c.Grows (s.assemble x start).cond := by
  simp only [State.assemble]
  repeat' split
  all_goals simp [h]

@[simp] theorem State.analyze_grows (h : c.Grows s.cond) (x : Symbol) :
    c.Grows (s.analyze x).cond := by
  simp only [State.analyze]
  repeat' split
  all_goals simp [h]

@[simp] theorem State.handOn_grows (h : c.Grows s.cond) (m : OpenMark) (x : Symbol) :
    c.Grows (s.handOn m x).cond := by
  simp only [State.handOn]
  repeat' split
  all_goals simp [h]

@[simp] theorem State.recordOutcome_grows (h : c.Grows s.cond) (address : Nat)
    (answer : Option (BitVec 16)) : c.Grows (s.recordOutcome address answer).cond := by
  simp only [State.recordOutcome, State.updateRecord]
  repeat' split
  all_goals simp [h]

@[simp] theorem State.scanEnds_grows (h : c.Grows s.cond) (t : Txn) (answer : Option (BitVec 16)) :
    c.Grows (s.scanEnds t answer).cond := by
  simp only [State.scanEnds]
  split
  all_goals simp [h]

@[simp] theorem State.relayEnds_grows (h : c.Grows s.cond) (t : Txn) (answer : Option (BitVec 16)) :
    c.Grows (s.relayEnds t answer).cond := by
  simp only [State.relayEnds]
  repeat' split
  all_goals simp [h]

@[simp] theorem State.txnEnds_grows (h : c.Grows s.cond) (t : Txn) (answer : Option (BitVec 16)) :
    c.Grows (s.txnEnds t answer).cond := by
  simp only [State.txnEnds]
  split
  all_goals simp [h]

@[simp] theorem State.noAnswer_grows (h : c.Grows s.cond) (t : Txn) : c.Grows (s.noAnswer t).cond := by
  simp only [State.noAnswer]
  repeat' split
  all_goals simp [h]

end

/-! ## What a command leaves of the active set and the views -/

theorem State.ViewsHoldActive.of_grows {s t : State} (hs : s.ViewsHoldActive) (h : s.cond.Grows t.cond) :
    t.ViewsHoldActive := fun i hi ha => by
  obtain ⟨hA, hB⟩ := hs i hi (by rwa [← h.active])
  exact ⟨h.views .a i hA, h.views .b i hB⟩

/-- A condition that was not active before enters both views at the end of the event (R190). -/
theorem State.settle_viewsHoldActive {s : State} (hs : s.ViewsHoldActive) : s.settle.ViewsHoldActive := by
  intro i hi hnow
  have hnow : s.activeNow.getLsbD i = true := hnow
  have hnew : s.cond.active.getLsbD i = false → (s.activeNow &&& ~~~s.cond.active).getLsbD i = true :=
    fun hold => by
      rw [BitVec.getLsbD_and, BitVec.getLsbD_not, hnow, hold]
      simp [hi]
  cases hold : s.cond.active.getLsbD i with
  | true =>
    obtain ⟨hA, hB⟩ := hs i hi hold
    simp [State.settle, Conditions.addToViews, hA, hB]
  | false =>
    have := hnew hold
    simp only [State.settle, Conditions.addToViews, BitVec.getLsbD_or, BitVec.getLsbD_setWidth, this]
    simp
    omega

/-- The views that are set to the active set hold it. -/
theorem State.resetViews_viewsHoldActive (s : State) : s.resetViews.ViewsHoldActive := fun i hi ha => by
  have ha : s.activeNow.getLsbD i = true := ha
  simp only [State.resetViews, BitVec.getLsbD_setWidth, ha]
  simp
  omega

theorem Conditions.getLsbD_view_setView (c : Conditions) (l m : Link) (x : ItemSet) (i : Nat) :
    ((c.setView l x).view m).getLsbD i = if m = l then x.getLsbD i else (c.view m).getLsbD i := by
  cases l <;> cases m <;> rfl

/-- One view may be replaced by the active set (R191, R206). -/
theorem State.ViewsHoldActive.setView {s t : State} (hs : s.ViewsHoldActive) (l : Link)
    (ha : t.cond.active = s.cond.active)
    (hv : ∀ m, t.cond.view m = (s.cond.setView l (s.cond.active.setWidth 25)).view m) :
    t.ViewsHoldActive := by
  intro i hi hact
  rw [ha] at hact
  obtain ⟨hA, hB⟩ := hs i hi hact
  have hnew : (s.cond.active.setWidth 25).getLsbD i = true := by
    rw [BitVec.getLsbD_setWidth, hact]
    simp
    omega
  have hview (m : Link) : (t.cond.view m).getLsbD i = true := by
    rw [hv, Conditions.getLsbD_view_setView]
    split
    · exact hnew
    · cases m
      · exact hA
      · exact hB
  exact ⟨hview .a, hview .b⟩

/-- What a command makes of the active set and the views: views that held the active conditions hold
them, and the set is exact at the end, or neither it nor a cause has changed. -/
structure State.CondKept (s t : State) : Prop where
  views : s.ViewsHoldActive → t.ViewsHoldActive
  exact_ : t.por = false →
    t.cond.active = t.activeNow ∨ s.por = false ∧ t.cond.active = s.cond.active ∧ t.causes = s.causes

theorem State.CondKept.settled {s x : State} (h : s.cond.Grows x.cond) : s.CondKept x.settle :=
  ⟨fun hs => State.settle_viewsHoldActive (hs.of_grows h), fun _ => .inl rfl⟩

theorem State.CondKept.quiet {s t : State} (hp : t.por = s.por) (h : s.cond.Grows t.cond)
    (hc : t.causes = s.causes) : s.CondKept t :=
  ⟨fun hs => hs.of_grows h, fun hpor => .inr ⟨hp ▸ hpor, h.active, hc⟩⟩

theorem State.activeNow_congr {s t : State} (h : t.causes = s.causes) : t.activeNow = s.activeNow :=
  BitVec.eq_of_getLsbD_eq fun i _ => by rw [State.activeNow_getLsbD, State.activeNow_getLsbD, h]

theorem State.CondKept.trans {s t u : State} (h : s.CondKept t) (g : t.CondKept u) : s.CondKept u := by
  refine ⟨fun hs => g.views (h.views hs), fun hu => ?_⟩
  obtain hnow | ⟨ht, hact, hc⟩ := g.exact_ hu
  · exact .inl hnow
  · obtain hnow' | ⟨hs, hact', hc'⟩ := h.exact_ ht
    · exact .inl (by rw [hact, hnow', State.activeNow_congr hc])
    · exact .inr ⟨hs, hact.trans hact', hc.trans hc'⟩

theorem State.CondKept.refl (s : State) : s.CondKept s := .quiet rfl (.refl _) rfl

theorem State.CondKept.resetViews (s x : State) : s.CondKept x.resetViews :=
  ⟨fun _ => x.resetViews_viewsHoldActive, fun _ => .inl rfl⟩

theorem State.CondKept.stationRestart (s x : State) : s.CondKept x.stationRestart := by
  unfold State.stationRestart
  split
  · exact .resetViews s _
  · exact .resetViews s _

/-- What the owning block of a request does to the views: READ_STATUS replaces one, the others add to
them. -/
theorem act_viewsHoldActive (c : Instr) (s : State) (hs : s.ViewsHoldActive) :
    (c.act s).state.ViewsHoldActive := by
  cases c
  case readStatus l _ => exact hs.setView l (by cases l <;> rfl) fun _ => rfl
  case setAlertMask l _ set =>
    simp only [Instr.act, actSetAlertMask]
    split
    · exact hs
    · exact hs.of_grows (Conditions.grows_of_eq (by cases l <;> rfl) (by cases l <;> rfl)
        (by cases l <;> rfl))
  case setFaultMask =>
    simp only [Instr.act, actSetFaultMask]
    split <;> exact hs
  case setThreshold =>
    simp only [Instr.act, actSetThreshold]
    split <;> exact hs
  all_goals
    refine hs.of_grows ?_
    simp only [Instr.act, actReadCounters, actTickNow,
      actReadTime, actStepTime, actSelectReference, actSetRefEnable, actSetSelectMode,
      actReadReferences, actSetSynth, actSynthOn, actSynthOff, actReadSynth, actReadKeyer,
      actPostChange, State.insertChange, actWithdrawChange, State.withdraw, actReadSchedule,
      actReadRetired, actSetZone, State.writeZone, actSelectZone,
      actWriteNotice, actSelectNotice, actReadNotice, actReadMonitor, actInjectMonitorError,
      actModuleRead, actModuleWrite, State.relay, actReadModules, actSetScan, State.changeRange,
      actSetParam, actReadParam, actRestart, State.refuseReading, actSetMode, actKillCarrier, State.kill,
      actSetHold, actMaintenance, State.requestOnAir]
    (repeat' split) <;> simp

theorem Acted.finish_cond (x : Acted) (l : Link) (tag : Tag) (code : Octet) :
    (x.finish l tag code).cond = x.state.cond := by
  cases x <;> simp [Acted.finish]

theorem Bus.contributing_alarm_congr {b d : Bus} (htable : d.table = b.table) (hfirst : d.first = b.first)
    (hlast : d.last = b.last) : d.contributing = b.contributing ∧ d.alarm = b.alarm := by
  simp only [Bus.contributing, Bus.alarm, Bus.inRange, Bus.record, htable, hfirst, hlast]
  exact ⟨trivial, rfl⟩

/-- What the causes of the conditions look at (R188). -/
theorem State.causes_congr {s t : State} (htb : t.tb = s.tb)
    (h1 : (t.ref1.enable, t.ref1.st) = (s.ref1.enable, s.ref1.st))
    (h2 : (t.ref2.enable, t.ref2.st) = (s.ref2.enable, s.ref2.st))
    (hsel : t.sel = s.sel) (hsynth : t.synth = s.synth)
    (hkey : (t.key.mode, t.key.deferred) = (s.key.mode, s.key.deferred))
    (hbus : (t.bus.table, t.bus.first, t.bus.last) = (s.bus.table, s.bus.first, s.bus.last))
    (hmon : (t.mon.frameLost, t.mon.an) = (s.mon.frameLost, s.mon.an)) (hparams : t.params = s.params)
    (htx : t.txReady = s.txReady) : t.causes = s.causes := by
  simp only [Prod.mk.injEq] at h1 h2 hkey hbus hmon
  obtain ⟨htable, hfirst, hlast⟩ := hbus
  obtain ⟨hcontributing, halarm⟩ := Bus.contributing_alarm_congr htable hfirst hlast
  simp only [State.causes, State.transmitterReady, State.patternUnsync, Keyer.onAir, htb, h1, h2, hsel,
    hsynth, hkey, hcontributing, halarm, hmon, hparams, htx]

/-- A change of a port that keeps its state and its enable touches no condition. -/
theorem State.setPort_condKept (s : State) (p : Port) {r : RefPort} (hs : r.st = (s.port p).st)
    (he : r.enable = (s.port p).enable) : s.CondKept (s.setPort p r) := by
  refine .quiet (by simp) (by simp) ?_
  apply State.causes_congr
  all_goals cases p <;> simp_all [State.setPort, State.port]

/-- A change of MON_IN touches no condition. -/
theorem State.monLine_condKept (s : State) (level : Bool) : s.CondKept (s.monLine level) := by
  unfold State.monLine
  extract_lets s1
  have hs1 : s.CondKept s1 := .quiet rfl (.refl _) rfl
  repeat' split
  all_goals first
    | exact hs1
    | exact .quiet rfl (.refl _) rfl

theorem State.causes_ensureTaken (s : State) (l : Link) (q : Request) :
    (s.ensureTaken l q).causes = s.causes := by
  apply State.causes_congr <;> simp

theorem State.request_condKept (s : State) (c : Instr) (l : Link) (q : Request) :
    s.CondKept (s.request l q c.act) := by
  unfold State.request
  split
  · exact .refl s
  · have htaken := State.ensureTaken_grows (.refl s.cond) l q
    dsimp only
    split
    · refine ⟨fun hs => State.settle_viewsHoldActive ?_, fun _ => .inl rfl⟩
      have hact := act_viewsHoldActive c
        { s.ensureTaken l q with exe := (s.ensureTaken l q).exe.serve l } (hs.of_grows htaken)
      unfold State.ViewsHoldActive at hact ⊢
      rwa [Acted.finish_cond]
    · exact .quiet (by simp) htaken (s.causes_ensureTaken l q)

/-- Every command leaves the active set exact and in the views, or touches no cause. -/
theorem exec_condKept {c : Instr} {s t : State} (hx : exec c s = .next t) : s.CondKept t := by
  by_cases hc : c.asRequest.isSome = true
  case pos =>
    obtain ⟨⟨l, q⟩, hlq⟩ := Option.isSome_iff_exists.mp hc
    rw [Instr.exec_request hlq] at hx
    cases hx
    exact s.request_condKept c l q
  have hwait (dt : Nat) : s.CondKept (s.wait dt) := .quiet rfl (.refl _) rfl
  cases c <;> simp [Instr.asRequest] at hc
  all_goals obtain rfl := Host.Outcome.next.inj hx
  case powerOnResetAssert dt => exact ⟨id, fun hp => by cases hp⟩
  case powerOnReset dt => exact .resetViews s _
  case restartNFall dt =>
    split
    · exact hwait dt
    · exact .stationRestart s _
  case awaitedRestart dt =>
    split
    · exact hwait dt
    · exact .stationRestart s _
  case linkBreak l dt =>
    split
    · exact hwait dt
    · unfold State.linkReset
      split
      · exact .stationRestart s _
      · refine ⟨fun hs => hs.setView l (by cases l <;> rfl) fun m => by cases l <;> cases m <;> rfl,
          fun hp => .inr ⟨by simpa using hp, by cases l <;> rfl, ?_⟩⟩
        apply State.causes_congr <;> simp [State.clearLink, Bus.unwanted]
  case responseSent l dt =>
    split
    · exact hwait dt
    · split
      · exact hwait dt
      · dsimp only
        split
        · exact .stationRestart s _
        · exact .quiet (by simp) (by simp) (by apply State.causes_congr <;> simp)
  case linkFrameReceived l octets dt =>
    split
    · exact hwait dt
    · have hgrows := foldl_keeps (P := fun t : State => s.cond.Grows t.cond)
        (fun _ o ht => State.rxOctet_grows ht l o) octets (s.wait dt) (.refl _)
      have hpor := foldl_keeps (P := fun t : State => t.por = s.por ∧ t.causes = s.causes)
        (f := fun t o => t.rxOctet l o)
        (fun t o ht => ⟨by simpa using ht.1, by
          rw [← ht.2]
          apply State.causes_congr <;> simp⟩) octets (s.wait dt) ⟨rfl, rfl⟩
      exact .quiet hpor.1 hgrows hpor.2
  case secondEdge =>
    split
    · exact .refl s
    · dsimp only
      split
      · exact .quiet rfl (.refl _) rfl
      · refine .settled (State.makeEdge_grows ?_ _)
        exact .refl _
  case phaseStepHoldExpiry =>
    split
    · exact .refl s
    · exact .settled (State.makeEdge_grows (by simp) _)
  case refPulse p dt =>
    dsimp only
    split
    · exact hwait dt
    · exact .settled (State.pulseEffects_grows (by simp) _ _)
  case freqInAbsent n dt =>
    dsimp only
    split
    · exact .quiet rfl (.refl _) rfl
    · refine .settled (State.sourceChange_grows ?_ _)
      exact .refl _
  case freqInReturn =>
    split
    · exact .refl s
    · refine .settled (State.sourceChange_grows ?_ _)
      exact .refl _
  case pulseWatchExpiry p =>
    split
    · exact .refl s
    · split
      · exact .refl s
      · refine .settled (State.portsMoved_grows (State.movePort_grows ?_ _ _) _)
        exact .refl _
  case comparisonPeriodEnd num den =>
    split
    · exact .refl s
    · exact .settled (by simp [State.periodEnd])
  case txReadyChange level dt =>
    dsimp only
    split
    case isTrue hp => exact ⟨id, fun hp' => by simp_all⟩
    case isFalse => exact .settled (.refl _)
  case moduleAnswer value dt =>
    split
    · split
      · exact hwait dt
      · refine .settled (State.txnEnds_grows ?_ _ _)
        exact .refl _
    · exact hwait dt
  case answerWindowExpiry =>
    split
    · split
      · exact .refl s
      · split
        · exact .refl s
        · refine .settled (State.noAnswer_grows ?_ _)
          exact .refl _
    · exact .refl s
  case markQuietClose =>
    split
    · split
      · exact .refl s
      · refine .settled (State.handOn_grows ?_ _ _)
        exact .refl _
    · exact .refl s
    · exact .refl s
  case markLongClose =>
    split
    · split
      · exact .refl s
      · refine .settled (State.handOn_grows ?_ _ _)
        exact .refl _
    · exact .refl s
    · exact .refl s
  case frameTimerExpiry =>
    split
    · split
      · exact .refl s
      · refine .settled (State.verdict_grows ?_ _)
        exact .refl _
    · exact .refl s
  case linkGapExpiry l =>
    split
    · exact .refl s
    · exact .quiet (by simp) (by simp [State.rxDiscard]) (by apply State.causes_congr <;> simp)
  case linkFramingError l dt =>
    split
    · exact hwait dt
    · exact .quiet (by simp) (by simp [State.rxDiscard]) (by apply State.causes_congr <;> simp)
  case lengthOctetInvalid l octet dt =>
    split
    · exact hwait dt
    · exact .quiet (by simp) (State.rxOctet_grows (s := s.wait dt) (.refl _) _ _)
        (by apply State.causes_congr <;> simp)
  case markIntervalEnd =>
    split
    · exact .refl s
    · split
      · exact .refl s
      · exact .quiet rfl (.refl _) rfl
  case refMessage p octets dt =>
    split
    · exact hwait dt
    · obtain ⟨hs, he, -⟩ := foldl_keeps
        (P := fun r : RefPort => r.st = ((s.wait dt).port p).st ∧
          r.enable = ((s.wait dt).port p).enable ∧ r.watch = ((s.wait dt).port p).watch)
        (fun r o hr => by
          obtain ⟨h1, h2, h3⟩ := r.octet_st (s.wait dt).now o
          rwa [h1, h2, h3]) octets ((s.wait dt).port p) ⟨rfl, rfl, rfl⟩
      exact (hwait dt).trans (State.setPort_condKept _ p hs he)
  case refMsgGapExpiry p =>
    split
    · exact .refl s
    · have huntil : s.CondKept (s.waitUntil (s.port p).rxGapAt) := .quiet rfl (.refl _) rfl
      exact huntil.trans (State.setPort_condKept _ p (r := (s.port p).dropMessage) rfl rfl)
  case refMsgFramingError p dt =>
    split
    · exact hwait dt
    · exact (hwait dt).trans
        (State.setPort_condKept _ p (r := ((s.wait dt).port p).dropMessage) rfl rfl)
  case attemptSent dt =>
    split
    · split
      · exact hwait dt
      · exact .quiet rfl (.refl _) rfl
    · exact hwait dt
  case monInRise dt =>
    split
    · exact hwait dt
    · exact (hwait dt).trans (State.monLine_condKept (s.wait dt) true)
  case monInFall dt =>
    split
    · exact (hwait dt).trans (State.monLine_condKept (s.wait dt) false)
    · exact hwait dt

end Sys2Proof.Machine

namespace Sys2Proof

open Sys2Proof.Machine

/-- Settles O12: a command leaves the set exact and in the views, or touches no cause. -/
theorem activeSetAndViewsAreKept : Obligations.ActiveSetAndViewsAreKept := by
  refine ⟨fun s t => step_keeps (P := State.ConditionsExact) (fun _ _ h => h) fun c s t h hx hp => ?_,
    fun s t => step_keeps (P := State.ViewsHoldActive) (fun _ _ h => h)
      fun c s t h hx => (exec_condKept hx).views h⟩
  obtain hnow | ⟨hs, hactive, hcauses⟩ := (exec_condKept hx).exact_ hp
  · exact hnow
  · rw [hactive, h hs, State.activeNow_congr hcauses]

end Sys2Proof

/-! Broadcast time and the timebase's counts under every command (R22..R27, R31, R32, R44): each stays in
its range, and SET time is lost at a reset only. -/

namespace Sys2Proof.Machine

/-! ## What a command other than an edge leaves of the counts -/

/-- The lengths of a minute (R24). -/
def Handed.InRange (h : Handed) : Prop := 59 ≤ h.length ∧ h.length ≤ 61

/-- From `t` to `u` time and the counts stay, but that the window and the holdover age may begin anew, and a
minute length may be handed over. -/
structure Timebase.CountsStay (t u : Timebase) : Prop where
  timeSet : t.timeSet = true → u.timeSet = true
  day : u.day = t.day
  sec : u.sec = t.sec
  minLen : u.minLen = t.minLen
  handed : ∀ h, u.handed = some h → t.handed = some h ∨ h.InRange
  pendingStep : u.pendingStep = t.pendingStep
  freeSec : u.freeSec = t.freeSec
  freeMin : u.freeMin = t.freeMin
  trim : u.trim = t.trim ∨ u.trim = 0
  k : u.k = t.k
  winCount : u.winCount ≤ t.winCount
  holdAge : u.holdAge ≤ t.holdAge

theorem Timebase.CountsStay.refl (t : Timebase) : t.CountsStay t := by
  constructor <;> simp +contextual

theorem Timebase.CountsStay.trans {t u v : Timebase} (h : t.CountsStay u) (g : u.CountsStay v) :
    t.CountsStay v where
  timeSet := g.timeSet ∘ h.timeSet
  day := g.day.trans h.day
  sec := g.sec.trans h.sec
  minLen := g.minLen.trans h.minLen
  handed x hx := (g.handed x hx).elim (h.handed x) .inr
  pendingStep := g.pendingStep.trans h.pendingStep
  freeSec := g.freeSec.trans h.freeSec
  freeMin := g.freeMin.trans h.freeMin
  trim := g.trim.elim (fun e => h.trim.elim (fun d => .inl (e.trans d)) (fun d => .inr (e.trans d))) .inr
  k := g.k.trans h.k
  winCount := g.winCount.trans h.winCount
  holdAge := g.holdAge.trans h.holdAge

theorem Timebase.CountsStay.of_eq {t u : Timebase} (h : u = t) : t.CountsStay u := h ▸ .refl t

theorem State.follow_countsStay (s : State) (old : Option Port) :
    s.tb.CountsStay (s.follow old).tb := by
  have hcounts : (s.follow old).tb.winCount ≤ s.tb.winCount ∧ (s.follow old).tb.holdAge ≤ s.tb.holdAge := by
    unfold State.follow
    repeat' split
    all_goals simp [Timebase.leaveLocked, Timebase.emptyWindow, State.enterLocked]
    split <;> simp
  constructor <;> simp +contextual [hcounts]

theorem State.select_countsStay (s : State) (x : Option Port) : s.tb.CountsStay (s.select x).tb := by
  have h := State.follow_countsStay
    (State.raiseIf { s with sel := { s.sel with selection := x } } (s.sel.selection ≠ x) .refSwitch)
    s.sel.selection
  simpa [State.select] using h

theorem State.portsMoved_countsStay (s0 s : State) : s.tb.CountsStay (s0.portsMoved s).tb := by
  have h := State.select_countsStay (s0.clearDisagree s) (s0.autoSelection (s0.clearDisagree s))
  simpa [State.portsMoved] using h

theorem State.correct_countsStay (s : State) (p : Port) (o : Int) :
    s.tb.CountsStay (s.correct p o).tb := by
  constructor <;> simp +contextual

theorem State.slewOnEntry_countsStay (s0 s : State) (known : Port → Bool) :
    s.tb.CountsStay (s0.slewOnEntry s known).tb := by
  constructor <;> simp +contextual

theorem State.correctOpen_countsStay (s : State) (p : Port) : s.tb.CountsStay (s.correctOpen p).tb := by
  constructor <;> simp +contextual

theorem State.completeOpen_tb (s : State) (p : Port) : (s.completeOpen p).tb = s.tb := by
  simp

theorem State.pulsesAtEdge_countsStay (s : State) (kind : EdgeKind) :
    s.tb.CountsStay (s.pulsesAtEdge kind).tb := by
  unfold State.pulsesAtEdge
  extract_lets s1 s2 s3
  have h1 : s.tb.CountsStay s1.tb := by
    simp only [s1]
    split
    · exact (s.correctOpen_countsStay .p1).trans (State.correctOpen_countsStay _ .p2)
    · exact .refl _
  have h2 : s1.tb.CountsStay s2.tb := by
    have h := State.portsMoved_countsStay s1 ((s1.completeOpen .p1).completeOpen .p2)
    simpa [s2] using h
  have h3 : s2.tb.CountsStay s3.tb := by
    simp only [s3]
    split
    · exact State.slewOnEntry_countsStay _ _ _
    · exact .refl _
  split
  · simpa using (h1.trans h2).trans h3
  · exact (h1.trans h2).trans h3

/-- The record of a frame has a minute's length (R104). -/
theorem State.frameRecord_length (s : State) (f : Nat) :
    59 ≤ (s.frameRecord f).length ∧ (s.frameRecord f).length ≤ 61 := by
  have hlength (x : Option Entry) : 59 ≤ (leapFields x).2 ∧ (leapFields x).2 ≤ 61 := by
    cases x with
    | none => simp [leapFields]
    | some e =>
      simp only [leapFields]
      repeat' split
      all_goals simp
  exact hlength _

theorem State.composition_countsStay (s : State) : s.tb.CountsStay s.composition.tb := by
  constructor
  case handed =>
    intro h hh
    simp only [State.composition, State.handOver] at hh
    obtain rfl := Option.some.inj hh
    exact .inr (State.frameRecord_length (s.leapCheck.processSchedule (nextMinute s.tb.minute))
      (nextMinute s.tb.minute))
  all_goals simp +contextual

theorem State.keyerBoundary_countsStay (s : State) : s.tb.CountsStay s.keyerBoundary.tb := by
  constructor <;> simp +contextual

theorem State.edgeFinished_countsStay (s : State) : s.tb.CountsStay s.edgeFinished.tb := by
  unfold State.edgeFinished
  extract_lets s2
  have h2 : s.tb.CountsStay s2.tb := by
    simp only [s2, State.minuteBoundary]
    split
    · simpa using s.keyerBoundary_countsStay
    · simpa using Timebase.CountsStay.refl s.tb
  split
  · exact h2.trans s2.composition_countsStay
  · exact h2

/-- Beside the timebase's own part an edge keeps the counts. -/
theorem State.makeEdge_countsStay (s : State) (kind : EdgeKind) :
    (s.tb.edge kind s.now).CountsStay (s.makeEdge kind).tb := by
  rw [State.makeEdge_eq]
  have hpulses := (s.beginEdge kind).pulsesAtEdge_countsStay kind
  have hstart : (s.tb.edge kind s.now).CountsStay (s.edgeStarted kind).tb := by
    refine hpulses.trans ?_
    constructor <;> simp +contextual [State.edgeStarted]
  exact hstart.trans (s.edgeStarted kind).edgeFinished_countsStay

/-! ## The ranges -/

/-- The timebase's part of `State.TimeInRange`. -/
structure Timebase.InRange (t : Timebase) : Prop where
  day : t.day ≤ 36524
  sec : t.sec ≤ 86400
  minLen : 59 ≤ t.minLen ∧ t.minLen ≤ 61
  handed : ∀ h, t.handed = some h → h.InRange
  pendingStep : ∀ x, t.pendingStep = some x → x.1 ≤ 36524 ∧ x.2 ≤ 86399
  freeSec : t.freeSec ≤ 59
  freeMin : t.freeMin ≤ 1439
  trim : -5000 ≤ t.trim ∧ t.trim ≤ 5000
  k : t.k ≤ 99
  winCount : t.winCount ≤ 99
  holdAge : t.holdAge ≤ 65535

theorem State.timeInRange_iff (s : State) :
    s.TimeInRange ↔ s.tb.InRange ∧ s.ref1.LabelsInRange ∧ s.ref2.LabelsInRange :=
  ⟨fun h => ⟨⟨h.day, h.sec, h.minLen, h.handed, h.pendingStep, h.freeSec, h.freeMin, h.trim, h.k,
    h.winCount, h.holdAge⟩, h.labels⟩,
   fun ⟨h, hl⟩ => ⟨h.day, h.sec, h.minLen, h.handed, h.pendingStep, hl, h.freeSec, h.freeMin, h.trim, h.k,
    h.winCount, h.holdAge⟩⟩

theorem Timebase.InRange.countsStay {t u : Timebase} (h : t.InRange) (g : t.CountsStay u) : u.InRange where
  day := g.day ▸ h.day
  sec := g.sec ▸ h.sec
  minLen := g.minLen ▸ h.minLen
  handed x hx := (g.handed x hx).elim (h.handed x) id
  pendingStep := g.pendingStep ▸ h.pendingStep
  freeSec := g.freeSec ▸ h.freeSec
  freeMin := g.freeMin ▸ h.freeMin
  trim := g.trim.elim (fun e => e ▸ h.trim) fun e => by rw [e]; decide
  k := g.k ▸ h.k
  winCount := g.winCount.trans h.winCount
  holdAge := g.holdAge.trans h.holdAge

/-! ## The timebase's part of an edge -/

theorem limit_bounds (bound : Nat) (v : Int) : -(bound : Int) ≤ limit bound v ∧ limit bound v ≤ bound := by
  unfold limit
  omega

theorem Timebase.InRange.emptyWindow {t : Timebase} (h : t.InRange) : t.emptyWindow.InRange :=
  { h with winCount := Nat.zero_le _ }

theorem Timebase.InRange.learn {t : Timebase} (h : t.InRange) : t.learn.InRange := by
  unfold Timebase.learn
  split
  · split
    · exact h.emptyWindow
    · split
      · exact { h with trim := limit_bounds 5000 _, winCount := Nat.zero_le _ }
      · exact { h with winCount := by simp only; omega }
  · exact h

theorem Timebase.InRange.age {t : Timebase} (h : t.InRange) : t.age.InRange := by
  unfold Timebase.age
  split
  · exact { h with holdAge := Nat.min_le_left .. }
  · exact h

theorem Timebase.InRange.setTime {t : Timebase} (h : t.InRange) {day sec : Nat} (hd : day ≤ 36524)
    (hs : sec ≤ 86400) : (t.setTime day sec).InRange :=
  { h with day := hd, sec := hs, minLen := by simp [Timebase.setTime], handed := fun _ hx => by cases hx }

theorem Timebase.InRange.acquire {t : Timebase} (h : t.InRange) : t.acquire.InRange :=
  { h with winCount := Nat.zero_le _ }

theorem Timebase.InRange.lengthFor {t : Timebase} (h : t.InRange) (m : Nat) :
    59 ≤ t.lengthFor m ∧ t.lengthFor m ≤ 61 := by
  unfold Timebase.lengthFor
  cases hh : t.handed with
  | none => simp
  | some x =>
    dsimp only
    split
    · exact h.handed x hh
    · simp

/-- The last second of a day with a leap second is the last of its minute, of whatever length. -/
theorem Timebase.InRange.advance {t : Timebase} (h : t.InRange) : t.advance.InRange := by
  have hday := h.day
  have hsec := h.sec
  have hlen := h.minLen
  unfold Timebase.advance
  split
  case isTrue =>
    have hminute : minuteOfDay t.sec ≤ 1439 := by
      unfold minuteOfDay
      split <;> omega
    have hstart : t.nextMinuteStart.1 ≤ 36524 ∧ t.nextMinuteStart.2 ≤ 86400 := by
      unfold Timebase.nextMinuteStart
      split
      · dsimp only
        split <;> omega
      · exact ⟨hday, by simp only; omega⟩
    exact { h with
      day := hstart.1, sec := hstart.2, minLen := h.lengthFor _, handed := fun _ hx => by cases hx }
  case isFalse hn =>
    refine { h with sec := ?_ }
    have : t.sec ≠ 86400 := fun he => by
      simp only [secondOfMinute, he, if_true] at hn
      omega
    simp only
    omega

theorem Timebase.InRange.advanceFree {t : Timebase} (h : t.InRange) : t.advanceFree.InRange := by
  have hsec := h.freeSec
  unfold Timebase.advanceFree
  split
  · exact { h with freeSec := Nat.zero_le _, freeMin := by simp only; omega }
  · exact { h with freeSec := by simp only; omega }

theorem Timebase.InRange.edge {t : Timebase} (h : t.InRange) {kind : EdgeKind} {now : Nat}
    (hl : ∀ x, kind = .acquisition x → x.InRange) : (t.edge kind now).InRange := by
  have hwin : (t.windowAtEdge kind).age.InRange := by
    refine Timebase.InRange.age ?_
    cases kind with
    | counted => exact h.learn
    | phaseStep => exact { h.emptyWindow with }
    | acquisition x => exact h.learn
  have hcount {u : Timebase} (hu : u.InRange) :
      (if u.timeSet then u.advance else u.advanceFree).InRange := by
    split
    · exact hu.advance
    · exact hu.advanceFree
  have hstep {u : Timebase} (hu : u.InRange) {x : Nat × Nat} (hx : u.pendingStep = some x) :
      ({ u.setTime x.1 x.2 with pendingStep := none } : Timebase).InRange := by
    obtain ⟨hd, hs⟩ := hu.pendingStep x hx
    exact { hu.setTime hd (hs.trans (by decide)) with pendingStep := fun _ hy => by cases hy }
  have htime : ((t.windowAtEdge kind).age.timeAtEdge kind).InRange := by
    generalize (t.windowAtEdge kind).age = u at hwin
    unfold Timebase.timeAtEdge
    split
    case h_1 x hx => exact (hstep hwin hx).acquire
    case h_2 label hx => exact (hwin.setTime (hl label rfl).1 (hl label rfl).2).acquire
    case h_3 x hx => exact hstep hwin hx
    case h_4 x hx => exact hstep hwin hx
    case h_5 => exact hcount hwin
    case h_6 => exact hcount hwin
  exact { htime with k := by simp only [Timebase.edge, Timebase.beginSecond]; omega }

/-- No edge unsets time. -/
theorem Timebase.edge_timeSet {t : Timebase} (h : t.timeSet = true) (kind : EdgeKind) (now : Nat) :
    (t.edge kind now).timeSet = true := by
  have hlearn : t.learn.timeSet = t.timeSet := by
    unfold Timebase.learn
    repeat' split
    all_goals rfl
  have hage (u : Timebase) : u.age.timeSet = u.timeSet := by
    unfold Timebase.age
    split <;> rfl
  have hadvance (u : Timebase) : u.advance.timeSet = u.timeSet := by
    unfold Timebase.advance
    split <;> rfl
  have hwin : (t.windowAtEdge kind).age.timeSet = true := by
    rw [hage]
    cases kind <;> simp [Timebase.windowAtEdge, hlearn, h, Timebase.emptyWindow]
  show ((t.windowAtEdge kind).age.timeAtEdge kind).timeSet = true
  generalize (t.windowAtEdge kind).age = u at hwin
  unfold Timebase.timeAtEdge
  split <;> simp [Timebase.setTime, Timebase.acquire, Timebase.emptyWindow, hwin, hadvance]

/-! ## The waiting labels -/

/-- The waiting labels of `t` are those of `s`. -/
def State.LabelsAlike (s t : State) : Prop := ∀ p, (t.port p).waiting = (s.port p).waiting

theorem State.LabelsAlike.of_refs {s t : State} (h1 : t.ref1 = s.ref1) (h2 : t.ref2 = s.ref2) :
    s.LabelsAlike t
  | .p1 => by rw [State.port, State.port, h1]
  | .p2 => by rw [State.port, State.port, h2]

theorem State.LabelsAlike.trans {s t u : State} (h : s.LabelsAlike t) (g : t.LabelsAlike u) :
    s.LabelsAlike u := fun p => (g p).trans (h p)

theorem State.LabelsAlike.setPort (s : State) (p : Port) {r : RefPort}
    (h : r.waiting = (s.port p).waiting) : s.LabelsAlike (s.setPort p r) := fun q => by
  obtain rfl | rfl := Port.eq_or_other p q
  · rw [State.port_setPort, h]
  · simp

theorem RefPort.judge_waiting (r : RefPort) (q : Params) (u : OpenPulse) (bad : Bool) :
    (r.judge q u bad).waiting = r.waiting := by
  unfold RefPort.judge
  cases r.st
  all_goals (dsimp only; repeat' split)
  all_goals rfl

theorem State.completePulse_labels (s : State) (p : Port) (u : OpenPulse) (o : Int) :
    s.LabelsAlike (s.completePulse p u o) := by
  have hport := State.LabelsAlike.setPort s p
    (r := ({ s.port p with lastOffset := o, edgeOffset := some o } : RefPort).judge s.params u
      (s.mismatch u.label)) (RefPort.judge_waiting _ _ _ _)
  refine hport.trans (.of_refs ?_ ?_) <;> simp [State.completePulse, State.movePort] <;> split <;> simp

theorem State.completeOpen_labels (s : State) (p : Port) : s.LabelsAlike (s.completeOpen p) := by
  unfold State.completeOpen
  refine foldl_keeps (P := fun t => s.LabelsAlike t)
    (fun t u ht => State.LabelsAlike.trans ht (t.completePulse_labels p u _)) _ _ ?_
  exact State.LabelsAlike.setPort s p rfl

theorem State.pulsesAtEdge_labels (s : State) (kind : EdgeKind) :
    s.LabelsAlike (s.pulsesAtEdge kind) := by
  unfold State.pulsesAtEdge
  extract_lets s1 s2 s3
  have h1 : s.LabelsAlike s1 := by
    refine .of_refs ?_ ?_ <;> simp only [s1] <;> split <;> simp
  have h2 : s1.LabelsAlike s2 :=
    ((s1.completeOpen_labels .p1).trans (State.completeOpen_labels _ .p2)).trans
      (.of_refs (by simp [s2]) (by simp [s2]))
  have h3 : s2.LabelsAlike s3 := by
    refine .of_refs ?_ ?_ <;> simp only [s3] <;> split <;> simp
  split
  · exact ((h1.trans h2).trans h3).trans (.of_refs (by simp) (by simp))
  · exact (h1.trans h2).trans h3

theorem State.leapCheck_labels (s : State) : s.LabelsAlike s.leapCheck
  | .p1 => by simp [State.leapCheck, State.port]
  | .p2 => by simp [State.leapCheck, State.port]

theorem State.edgeFinished_labels (s : State) : s.LabelsAlike s.edgeFinished := by
  unfold State.edgeFinished
  extract_lets s2
  have h2 : s.LabelsAlike s2 := by
    refine .of_refs ?_ ?_ <;> simp only [s2] <;> split <;> simp
  split
  · refine h2.trans ((s2.leapCheck_labels).trans (.of_refs ?_ ?_)) <;> simp [State.composition]
  · exact h2

theorem State.makeEdge_labels (s : State) (kind : EdgeKind) : s.LabelsAlike (s.makeEdge kind) := by
  rw [State.makeEdge_eq]
  have hbegin : s.LabelsAlike (s.beginEdge kind)
    | .p1 => rfl
    | .p2 => rfl
  have hstart : (s.beginEdge kind).LabelsAlike (s.edgeStarted kind) :=
    ((s.beginEdge kind).pulsesAtEdge_labels kind).trans
      (.of_refs (by simp [State.edgeStarted]) (by simp [State.edgeStarted]))
  exact (hbegin.trans hstart).trans (State.edgeFinished_labels _)

theorem State.pulseNow_labels (s : State) (p : Port) (u : OpenPulse) :
    s.LabelsAlike (s.pulseNow p u) := by
  have hcorrect : s.LabelsAlike (s.correct p (s.offsetOf u.at_)) := .of_refs (by simp) (by simp)
  exact (hcorrect.trans (State.completePulse_labels _ p u (s.offsetOf u.at_))).trans
    (.of_refs (by simp [State.pulseNow]) (by simp [State.pulseNow]))

theorem State.pulseNow_countsStay (s : State) (p : Port) (u : OpenPulse) :
    s.tb.CountsStay (s.pulseNow p u).tb := by
  have hcorrect := s.correct_countsStay p (s.offsetOf u.at_)
  have hmoved := State.portsMoved_countsStay (s.correct p (s.offsetOf u.at_))
    ((s.correct p (s.offsetOf u.at_)).completePulse p u (s.offsetOf u.at_))
  have hslew := State.slewOnEntry_countsStay (s.correct p (s.offsetOf u.at_))
    ((s.correct p (s.offsetOf u.at_)).portsMoved
      ((s.correct p (s.offsetOf u.at_)).completePulse p u (s.offsetOf u.at_))) (· = p)
  simp only [State.completePulse_frame] at hmoved
  simpa [State.pulseNow] using (hcorrect.trans hmoved).trans hslew

/-! ## Time and the counts under a command -/

/-- From `s` to `t` time and the counts stay in their ranges, and time stays SET. -/
structure State.TimeKept (s t : State) : Prop where
  range : s.TimeInRange → t.TimeInRange
  timeSet : s.tb.timeSet = true → t.tb.timeSet = true

theorem State.TimeKept.refl (s : State) : s.TimeKept s := ⟨id, id⟩

theorem State.TimeKept.trans {s t u : State} (h : s.TimeKept t) (g : t.TimeKept u) : s.TimeKept u :=
  ⟨g.range ∘ h.range, g.timeSet ∘ h.timeSet⟩

theorem State.TimeInRange.port {s : State} (h : s.TimeInRange) (p : Port) :
    (s.port p).LabelsInRange := by
  cases p
  · exact h.labels.1
  · exact h.labels.2

theorem State.TimeInRange.of_parts {s : State} (h : s.tb.InRange) (hl : ∀ p, (s.port p).LabelsInRange) :
    s.TimeInRange := s.timeInRange_iff.mpr ⟨h, hl .p1, hl .p2⟩

theorem State.TimeInRange.tb {s : State} (h : s.TimeInRange) : s.tb.InRange :=
  (s.timeInRange_iff.mp h).1

theorem State.TimeKept.of_countsStay {s t : State} (h : s.tb.CountsStay t.tb) (hl : s.LabelsAlike t) :
    s.TimeKept t :=
  ⟨fun hs => .of_parts (hs.tb.countsStay h) fun p x hx => hs.port p x ((hl p).symm.trans hx),
    h.timeSet⟩

theorem State.TimeKept.of_eq {s t : State} (h : t.tb = s.tb) (h1 : t.ref1 = s.ref1)
    (h2 : t.ref2 = s.ref2) : s.TimeKept t := .of_countsStay (.of_eq h) (.of_refs h1 h2)

/-- A port may drop its waiting label or take one in range. -/
theorem State.TimeKept.setPort (s : State) (p : Port) {r : RefPort}
    (h : (s.port p).LabelsInRange → r.LabelsInRange) : s.TimeKept (s.setPort p r) := by
  refine ⟨fun hs => .of_parts (by simpa using hs.tb) fun q => ?_, by simp⟩
  obtain rfl | rfl := Port.eq_or_other p q
  · simpa using h (hs.port _)
  · simpa using hs.port _

theorem State.TimeKept.settle (s : State) : s.TimeKept s.settle := .of_eq (by simp) (by simp) (by simp)

theorem State.TimeKept.makeEdge {x s : State} (h : x.TimeKept s) {kind : EdgeKind}
    (hl : ∀ label, kind = .acquisition label → x.TimeInRange → label.InRange) :
    x.TimeKept (s.makeEdge kind) := by
  refine ⟨fun hx => ?_, fun hx => ?_⟩
  · have hs := h.range hx
    refine .of_parts ?_ fun p y hy => hs.port p y ((s.makeEdge_labels kind p).symm.trans hy)
    exact (hs.tb.edge fun y hy => hl y hy hx).countsStay (s.makeEdge_countsStay kind)
  · exact (s.makeEdge_countsStay kind).timeSet (Timebase.edge_timeSet (h.timeSet hx) kind s.now)

theorem State.SameBlocks.timeKept {s t : State} (h : s.SameBlocks t) : s.TimeKept t :=
  have hk := h.keepsBut []
  .of_eq (hk.tb (by simp)) (hk.ref1 (by simp)) (hk.ref2 (by simp))

theorem State.acquisitionLabel_eq {s : State} {p : Port} {u : OpenPulse} {x : Label}
    (h : s.acquisitionLabel p u = some x) : u.label = some x := by
  unfold State.acquisitionLabel at h
  repeat' split at h
  all_goals simp_all

theorem State.TimeKept.pulseEffects {x s : State} (h : x.TimeKept s) (p : Port) {u : OpenPulse}
    (hu : x.TimeInRange → ∀ label, u.label = some label → label.InRange) :
    x.TimeKept (s.pulseEffects p u) := by
  have hpush : x.TimeKept (s.pushOpen p u) := h.trans (State.TimeKept.setPort s p id)
  unfold State.pulseEffects
  split
  case h_1 label hl =>
    refine hpush.makeEdge fun y hy hx => ?_
    obtain rfl := EdgeKind.acquisition.inj hy
    exact hu hx label (State.acquisitionLabel_eq hl)
  case h_2 =>
    split
    · exact hpush.makeEdge fun _ hx => by cases hx
    · split
      · exact h.trans (.of_countsStay (s.pulseNow_countsStay p u) (s.pulseNow_labels p u))
      · exact hpush

theorem messageOf_inRange {octets : List Octet} {valid : Bool} {x : Label}
    (h : messageOf octets = some (valid, x)) : x.InRange := by
  unfold messageOf at h
  split at h
  · dsimp only at h
    repeat' split at h
    case h_2.isFalse hr =>
      obtain ⟨-, rfl⟩ := Prod.mk.inj (Option.some.inj h)
      simp only [Bool.or_eq_true, decide_eq_true_eq, not_or] at hr
      exact ⟨by simp only; omega, by simp only; omega⟩
    all_goals cases h
  · cases h

theorem RefPort.octet_labels {r : RefPort} (h : r.LabelsInRange) (now : Nat) (o : Octet) :
    (r.octet now o).LabelsInRange := by
  have hdone (msg : List Octet) : (r.messageDone msg).LabelsInRange := by
    unfold RefPort.messageDone
    split
    · exact h
    · split
      · exact h
      case h_2 valid label hm =>
        intro x hx
        cases valid with
        | false => cases hx
        | true =>
          obtain rfl := Option.some.inj hx
          exact messageOf_inRange hm
  unfold RefPort.octet
  repeat' split
  · exact h
  · exact h
  · exact h
  · exact h
  · exact hdone _

theorem RefPort.watchOut_waiting (r : RefPort) (now : Nat) : (r.watchOut now).waiting = none := by
  simp only [RefPort.watchOut]
  split <;> rfl

theorem State.movePort_timeKept (s : State) (p : Port) {r : RefPort} (h : r.waiting = none) :
    s.TimeKept (s.movePort p r) := by
  have hport := State.TimeKept.setPort s p (r := r) fun _ x hx => by rw [h] at hx; cases hx
  refine hport.trans (.of_eq ?_ ?_ ?_) <;> simp only [State.movePort] <;> split <;> simp

theorem State.portsMoved_timeKept (s0 s : State) : s.TimeKept (s0.portsMoved s) :=
  .of_countsStay (State.portsMoved_countsStay s0 s) (.of_refs (by simp) (by simp))

theorem State.select_timeKept (s : State) (x : Option Port) : s.TimeKept (s.select x) :=
  .of_countsStay (s.select_countsStay x) (.of_refs (by simp) (by simp))

theorem Timebase.sourceChange_countsStay (t : Timebase) (src : Source) :
    t.CountsStay (t.sourceChange src) := by
  unfold Timebase.sourceChange
  cases t.disc <;> constructor <;> simp +contextual [Timebase.emptyWindow]

theorem State.sourceChange_timeKept (s : State) (src : Source) : s.TimeKept (s.sourceChange src) :=
  .of_countsStay (by simpa [State.sourceChange] using s.tb.sourceChange_countsStay src)
    (.of_refs (by simp) (by simp))

/-- What the owning block of a request does to time and the counts. -/
theorem act_timeKept {c : Instr} (hc : c.asRequest.isSome = true) (s : State) :
    s.TimeKept (c.act s).state := by
  have hk := act_keepsBut c s
  cases c <;> simp [Instr.asRequest] at hc
  case stepTime l tag day second =>
    simp only [Instr.act, actStepTime]
    split
    · exact .refl s
    · split
      · exact .refl s
      case isFalse hr =>
        simp only [Bool.or_eq_true, decide_eq_true_eq, not_or, not_lt] at hr
        refine ⟨fun hs => { hs with pendingStep := fun x hx => ?_ }, id⟩
        obtain rfl := Option.some.inj hx
        exact hr
  case selectReference l tag choice =>
    simp only [Instr.act, actSelectReference]
    repeat' split
    · exact .refl s
    · exact .refl s
    · refine State.TimeKept.trans ?_ (State.select_timeKept _ _)
      exact .of_eq rfl rfl rfl
  case setSelectMode l tag mode =>
    simp only [Instr.act, actSetSelectMode]
    repeat' split
    · exact .refl s
    · exact .refl s
    · refine State.TimeKept.trans ?_ (State.select_timeKept _ _)
      exact .of_eq rfl rfl rfl
    · refine State.TimeKept.trans ?_ (State.select_timeKept _ _)
      exact .of_eq rfl rfl rfl
  case setRefEnable l tag port setting =>
    simp only [Instr.act, actSetRefEnable]
    repeat' split
    · exact .refl s
    · exact State.TimeKept.setPort s _ id
    · exact .refl s
    · exact (s.movePort_timeKept _ rfl).trans (State.portsMoved_timeKept _ _)
    · exact .refl s
    · exact .refl s
  case setMode l tag o =>
    refine .of_countsStay ?_ (.of_refs (hk.ref1 (by simp [Instr.writes])) (hk.ref2 (by simp [Instr.writes])))
    simp only [Instr.act, actSetMode, State.requestOnAir]
    repeat' split
    all_goals constructor <;> simp +contextual
  case killCarrier =>
    refine .of_countsStay ?_ (.of_refs (hk.ref1 (by simp [Instr.writes])) (hk.ref2 (by simp [Instr.writes])))
    constructor <;> simp +contextual [Instr.act, actKillCarrier]
  all_goals
    exact .of_eq (hk.tb (by simp [Instr.writes])) (hk.ref1 (by simp [Instr.writes]))
      (hk.ref2 (by simp [Instr.writes]))

theorem State.request_timeKept (s : State) {c : Instr} {l : Link} {q : Request}
    (hc : c.asRequest = some (l, q)) : s.TimeKept (s.request l q c.act) := by
  obtain h | ⟨x, hx, -, ht⟩ := s.request_cases l q c.act
  · exact h.timeKept
  · exact (hx.timeKept.trans (act_timeKept (by simp [hc]) x)).trans ht.timeKept

/-- Every command but a reset keeps time and the counts. -/
theorem exec_timeKept {c : Instr} {s t : State} (hc : c.writes ≠ Block.all) (hx : exec c s = .next t) :
    s.TimeKept t := by
  cases hr : c.asRequest with
  | some r =>
    obtain ⟨l, q⟩ := r
    rw [Instr.exec_request hr] at hx
    obtain rfl := Host.Outcome.next.inj hx
    exact s.request_timeKept hr
  | none =>
    have hk := exec_keepsBut hx
    have hwait (dt : Nat) : s.TimeKept (s.wait dt) := .of_eq rfl rfl rfl
    have huntil (n : Nat) : s.TimeKept (s.waitUntil n) := .of_eq rfl rfl rfl
    cases c <;> simp [Instr.asRequest] at hr <;> simp [Instr.writes, Block.all, Block.ofEdge] at hc
    case freqInAbsent n dt =>
      obtain rfl := Host.Outcome.next.inj hx
      dsimp only
      split
      · exact .of_eq rfl rfl rfl
      · refine (State.TimeKept.trans ?_ (State.sourceChange_timeKept _ _)).trans (.settle _)
        exact .of_eq rfl rfl rfl
    case freqInReturn =>
      obtain rfl := Host.Outcome.next.inj hx
      split
      · exact .refl s
      · exact ((huntil _).trans (State.sourceChange_timeKept _ _)).trans (.settle _)
    case secondEdge =>
      obtain rfl := Host.Outcome.next.inj hx
      dsimp only
      split
      · exact .refl s
      · split
        · exact huntil _
        · exact ((huntil _).makeEdge fun _ h => by cases h).trans (.settle _)
    case phaseStepHoldExpiry =>
      obtain rfl := Host.Outcome.next.inj hx
      split
      · exact .refl s
      · have habandon (x : State) : x.TimeKept x.abandonStep :=
          .of_countsStay (by constructor <;> simp +contextual) (.of_refs (by simp) (by simp))
        exact (((huntil _).trans (habandon _)).makeEdge fun _ h => by cases h).trans (.settle _)
    case refPulse p dt =>
      obtain rfl := Host.Outcome.next.inj hx
      dsimp only
      split
      · exact hwait dt
      · have hport := State.TimeKept.setPort (s.wait dt) p
          (r := ((s.wait dt).port p).pulse (s.wait dt).params.qualWindow (s.wait dt).now)
          fun _ x h => by cases h
        refine (((hwait dt).trans hport).pulseEffects p fun hs label hl => ?_).trans (.settle _)
        exact ((hwait dt).range hs).port p label hl
    case refMessage p octets dt =>
      obtain rfl := Host.Outcome.next.inj hx
      split
      · exact hwait dt
      · refine (hwait dt).trans (State.TimeKept.setPort _ p fun h => ?_)
        exact foldl_keeps (P := RefPort.LabelsInRange) (fun r o hr => r.octet_labels hr _ o) octets _ h
    case refMsgGapExpiry p =>
      obtain rfl := Host.Outcome.next.inj hx
      split
      · exact .refl s
      · exact (huntil _).trans (State.TimeKept.setPort _ p (r := (s.port p).dropMessage) id)
    case refMsgFramingError p dt =>
      obtain rfl := Host.Outcome.next.inj hx
      split
      · exact hwait dt
      · exact (hwait dt).trans
          (State.TimeKept.setPort _ p (r := ((s.wait dt).port p).dropMessage) id)
    case pulseWatchExpiry p =>
      obtain rfl := Host.Outcome.next.inj hx
      split
      · exact .refl s
      · split
        · exact .refl s
        · exact (((huntil _).trans (State.movePort_timeKept _ p (RefPort.watchOut_waiting _ _))).trans
            (State.portsMoved_timeKept _ _)).trans (.settle _)
    all_goals
      exact .of_eq (hk.tb (by simp [Instr.writes])) (hk.ref1 (by simp [Instr.writes]))
        (hk.ref2 (by simp [Instr.writes]))

/-! ## The resets -/

theorem Timebase.reset_inRange (src : Source) :
    ({ Timebase.reset with source := src } : Timebase).InRange := by
  constructor <;> simp [Timebase.reset]

theorem exec_timeInRange {c : Instr} {s t : State} (h : s.TimeInRange) (hx : exec c s = .next t) :
    t.TimeInRange := by
  by_cases hc : c.writes = Block.all
  case pos =>
    obtain ⟨-, htb, h1, h2, -⟩ | ⟨-, ⟨src, htb⟩, h1, h2, -⟩ := exec_reset_context hc hx
    · exact (State.TimeKept.of_eq htb h1 h2).range h
    · refine .of_parts (htb ▸ Timebase.reset_inRange src) fun p => ?_
      cases p
      · simpa [State.port, h1] using RefPort.reset_labels
      · simpa [State.port, h2] using RefPort.reset_labels
  case neg => exact (exec_timeKept hc hx).range h

/-- A station restart with CARRY_OVER on keeps the timebase (R218). -/
theorem State.stationRestart_tb {s : State} (h : s.params.carryOver = true) :
    s.stationRestart.tb = s.tb := by
  simp [State.stationRestart, h]

theorem State.linkReset_tb {s : State} (h : s.params.carryOver = true) (l : Link) :
    (s.linkReset l).tb = s.tb := by
  unfold State.linkReset
  split
  · rw [State.stationRestart_tb (by simpa using h)]
    simp
  · simp

end Sys2Proof.Machine

namespace Sys2Proof

open Sys2Proof.Machine

/-- Settles O24: the edges and the references keep the ranges, and only a restart without CARRY_OVER, or a
power-on reset, clears the timebase. -/
theorem timebaseStaysInRange : Obligations.TimebaseStaysInRange := by
  refine ⟨fun s t => step_keeps (P := State.TimeInRange)
    (fun _ _ h => ⟨h.day, h.sec, h.minLen, h.handed, h.pendingStep, h.labels, h.freeSec, h.freeMin, h.trim,
      h.k, h.winCount, h.holdAge⟩) (fun _ _ _ => exec_timeInRange), fun c s t hx hset hunset => ?_⟩
  by_cases hc : c.writes = Block.all
  case neg => simp [(exec_timeKept hc hx).timeSet hset] at hunset
  case pos =>
    cases hcarry : s.params.carryOver with
    | false =>
      cases c <;> simp [Instr.writes, Block.ofEdge, Block.all] at hc <;> simp
    | true =>
      have hkeep : t.tb = s.tb → False := fun h => by simp [h, hset] at hunset
      cases c <;> simp [Instr.writes, Block.ofEdge, Block.all] at hc
      case powerOnReset dt => exact .inl ⟨dt, rfl⟩
      all_goals
        obtain rfl := Host.Outcome.next.inj hx
        refine (hkeep ?_).elim
      case restartNFall dt =>
        split
        · rfl
        · exact State.stationRestart_tb hcarry
      case awaitedRestart dt =>
        split
        · rfl
        · exact State.stationRestart_tb hcarry
      case linkBreak l dt =>
        split
        · rfl
        · exact State.linkReset_tb (s := s.wait dt) hcarry l
      case responseSent l dt =>
        split
        · rfl
        · split
          · rfl
          · dsimp only
            split
            · rw [State.stationRestart_tb (by simpa using hcarry)]
              simp
            · simp

end Sys2Proof

/-! The control links (R207..R213, R217): the receive parser over a frame, the outstanding list, and the
execution of a request. -/

namespace Sys2Proof.Machine

/-! ## Octets of a number -/

theorem octetsBE_two (v : BitVec 16) : octetsBE 2 v.toNat = [v.extractLsb' 8 8, v.extractLsb' 0 8] := by
  simp only [octetsBE, List.nil_append, List.cons_append, List.cons.injEq, and_true]
  constructor <;> apply BitVec.eq_of_toNat_eq <;>
    simp [BitVec.toNat_ofNat, BitVec.extractLsb'_toNat, Nat.shiftRight_eq_div_pow]

/-- An octet pair is the number that it stands for. -/
theorem extractLsb'_append_halves (v : BitVec 16) : v.extractLsb' 8 8 ++ v.extractLsb' 0 8 = v := by
  ext i hi
  simp only [BitVec.getElem_append, BitVec.getElem_extractLsb']
  split
  case isTrue => simp [hi, BitVec.getElem_eq_testBit_toNat]
  case isFalse h =>
    rw [show 8 + (i - 8) = i by omega]
    simp [hi, BitVec.getElem_eq_testBit_toNat]

/-! ## The receive parser (R208) -/

@[simp] theorem State.setLink_setLink (s : State) (l : Link) (x y : LinkState) :
    (s.setLink l x).setLink l y = s.setLink l y := by
  cases l <;> rfl

@[simp] theorem State.setLink_link (s : State) (l : Link) : s.setLink l (s.link l) = s := by
  cases l <;> rfl

@[simp] theorem State.now_setLink (s : State) (l : Link) (x : LinkState) :
    (s.setLink l x).now = s.now := by simp

theorem State.rxHunt_rxKeep (s : State) (l : Link) (x : RxState) :
    (s.rxKeep l x).rxHunt l = s.rxKeep l .hunt := by
  simp [State.rxKeep, State.rxHunt]

theorem State.rxOctet_sync {s : State} {l : Link} (h : (s.link l).rx = .hunt) :
    s.rxOctet l 0xC3#8 = s.rxKeep l .length := by
  simp [State.rxOctet, h]

section
variable (s : State) (l : Link)

theorem State.rxOctet_length {o : Octet} (h : 3 ≤ o.toNat) (h' : o.toNat ≤ 60) :
    (s.rxKeep l .length).rxOctet l o = s.rxKeep l (.body o []) := by
  simp [State.rxOctet, State.rxKeep, h, h']

theorem State.rxOctet_body (len : Octet) (got : List Octet) (o : Octet) :
    (s.rxKeep l (.body len got)).rxOctet l o =
      s.rxKeep l (if len.toNat ≤ (got ++ [o]).length then .check len (got ++ [o]) none
        else .body len (got ++ [o])) := by
  simp [State.rxOctet, State.rxKeep]

theorem State.rxOctet_checkHigh (len : Octet) (got : List Octet) (o : Octet) :
    (s.rxKeep l (.check len got none)).rxOctet l o = s.rxKeep l (.check len got (some o)) := by
  simp [State.rxOctet, State.rxKeep]

theorem State.rxOctet_checkLow (len : Octet) (got : List Octet) (hi o : Octet) :
    (s.rxKeep l (.check len got (some hi))).rxOctet l o =
      if crc16 (len :: got) = hi ++ o then (s.rxKeep l .hunt).frameArrived l got
      else (s.rxKeep l .hunt).countDiscard l := by
  have hrx : ((s.rxKeep l (.check len got (some hi))).link l).rx = .check len got (some hi) := by
    simp [State.rxKeep]
  simp only [State.rxOctet, hrx, State.rxDiscard, State.rxHunt_rxKeep]

/-- The octets of a body collect until LEN of them are there. -/
theorem State.rxOctets_body (len : Octet) (xs : List Octet) (got : List Octet) (hne : xs ≠ [])
    (hlen : got.length + xs.length = len.toNat) :
    xs.foldl (fun s o => s.rxOctet l o) (s.rxKeep l (.body len got)) =
      s.rxKeep l (.check len (got ++ xs) none) := by
  induction xs generalizing got with
  | nil => exact absurd rfl hne
  | cons x xs ih =>
    rw [List.foldl_cons, State.rxOctet_body]
    cases xs with
    | nil => simp_all
    | cons y ys =>
      have hmore : ¬len.toNat ≤ (got ++ [x]).length := by
        simp only [List.length_append, List.length_cons, List.length_nil] at hlen ⊢
        omega
      rw [if_neg hmore, ih (got ++ [x]) (by simp) (by simp at hlen ⊢; omega)]
      simp

end

/-- A frame of a valid length, whole: its body arrives if its check holds, and is discarded and counted if
not. -/
theorem State.rxOctets_frame {s : State} {l : Link} (h : (s.link l).rx = .hunt) {body : List Octet}
    (h3 : 3 ≤ body.length) (h60 : body.length ≤ 60) (check : BitVec 16) :
    (0xC3#8 :: octetsBE 1 body.length ++ body ++ octetsBE 2 check.toNat).foldl
        (fun s o => s.rxOctet l o) s =
      if check = crc16 (octetsBE 1 body.length ++ body) then (s.rxKeep l .hunt).frameArrived l body
      else (s.rxKeep l .hunt).countDiscard l := by
  have hone : octetsBE 1 body.length = [BitVec.ofNat 8 body.length] := rfl
  have hnat : (BitVec.ofNat 8 body.length).toNat = body.length := by
    rw [BitVec.toNat_ofNat]
    omega
  have hne : body ≠ [] := fun he => by simp [he] at h3
  rw [hone, octetsBE_two]
  simp only [List.cons_append, List.nil_append, List.foldl_cons, List.foldl_append, List.foldl_nil]
  rw [State.rxOctet_sync h, State.rxOctet_length s l (by omega) (by omega),
    State.rxOctets_body s l _ body [] hne (by simp [hnat]), State.rxOctet_checkHigh,
    State.rxOctet_checkLow, extractLsb'_append_halves]
  simp only [List.nil_append, eq_comm]

theorem exec_linkFrameReceived {l : Link} {octets : List Octet} {dt : Nat} {s : State}
    (hp : s.por = false) : exec (.linkFrameReceived l octets dt) s =
      .next (octets.foldl (fun s o => s.rxOctet l o) (s.wait dt)) := by
  simp [exec, execLinkFrameReceived, hp]

theorem State.wait_rxKeep_hunt (s : State) (l : Link) (dt : Nat) :
    (s.wait dt).rxKeep l .hunt = { s with now := s.now + dt }.setLink l
      { s.link l with rx := .hunt, gapAt := s.now + dt + 100000 } := by
  cases l <;> rfl

/-! ## A link reset (R217) -/

theorem State.link_wait (s : State) (l : Link) (dt : Nat) : (s.wait dt).link l = s.link l := by
  cases l <;> rfl

/-! ## The outstanding list and the catalogue (R210, R211, R215) -/

theorem State.giveAtOnce_eq (s : State) (l : Link) (q : Request) (r : Result) :
    s.giveAtOnce l q r =
      if (s.link l).output.countP (·.atOnce) < 4 then
        s.setLink l { s.link l with output := (s.link l).output ++
          [{ tag := q.tag, code := q.code, result := r, data := [], atOnce := true, relayed := false }] }
      else s.countDiscard l := by
  by_cases h : (s.link l).output.countP (·.atOnce) < 4
  · rw [if_pos h, State.giveAtOnce, if_neg (by simpa using h)]
  · rw [if_neg h, State.giveAtOnce, if_pos (by simpa using h)]

theorem removeFirst_eq_self {α : Type} {p : α → Bool} {xs : List α} (h : ∀ x ∈ xs, p x = false) :
    removeFirst p xs = xs := by
  induction xs with
  | nil => rfl
  | cons x xs ih =>
    rw [removeFirst, if_neg (by simp [h x]), ih fun y hy => h y (.tail _ hy)]

theorem removeFirst_append {α : Type} {p : α → Bool} {before after : List α} {e : α} (he : p e = true)
    (h : ∀ x ∈ before, p x = false) : removeFirst p (before ++ e :: after) = before ++ after := by
  induction before with
  | nil => simp [removeFirst, he]
  | cons x xs ih =>
    rw [List.cons_append, removeFirst, if_neg (by simp [h x]), ih fun y hy => h y (.tail _ hy)]
    rfl

theorem argsFit_none {code : Octet} (args : List Octet)
    (h : code ≠ 0x60) (h' : code ∉ catalogue.map Prod.fst) : argsFit code args = none := by
  unfold argsFit
  rw [if_neg h, Option.map_eq_none_iff, List.lookup_eq_none_iff]
  intro row hrow
  simp only [bne_iff_ne]
  rintro rfl
  exact h' (List.mem_map_of_mem hrow)

theorem argsFit_lookup {code : Octet} {n : Nat} (args : List Octet) (h : code ≠ 0x60)
    (h' : catalogue.lookup code = some n) : argsFit code args = some (decide (args.length = n)) := by
  unfold argsFit
  rw [if_neg h, h', Option.map_some]
  simp only [eq_comm]

/-- WRITE_NOTICE has a slot, a length and as many octets of text. -/
theorem argsFit_writeNotice (args : List Octet) : (argsFit 0x60 args).isSome = true ∧
    (argsFit 0x60 args = some true ↔
      ∃ slot n text, args = slot :: n :: text ∧ args.length = 2 + n.toNat) := by
  refine ⟨by simp [argsFit], ?_⟩
  match args with
  | [] => simp [argsFit]
  | [x] => simp [argsFit]
  | slot :: n :: text =>
    simp only [argsFit, if_true, Option.some.injEq, decide_eq_true_eq, List.length_cons, List.cons.injEq]
    constructor
    · exact fun h => ⟨slot, n, text, ⟨rfl, rfl, rfl⟩, by omega⟩
    · rintro ⟨_, _, _, ⟨rfl, rfl, rfl⟩, h⟩
      omega

/-- The octets of a response (R207, R209). -/
theorem Response.frame_eq (r : Response) :
    r.frame =
      let body := r.tag.extractLsb' 8 8 :: r.tag.extractLsb' 0 8 :: r.code :: r.result.code :: r.data
      let counted := BitVec.ofNat 8 body.length :: body
      0xC3#8 :: counted ++ [(crc16 counted).extractLsb' 8 8, (crc16 counted).extractLsb' 0 8] := by
  simp [Response.frame, linkFrame, octetsBE_two]
  simp [octetsBE]

/-- The check takes an octet bit by bit, the highest first. -/
theorem crc16Octet_eq (r : BitVec 16) (o : Octet) :
    crc16Octet r o = (List.range 8).foldl (fun r i => crc16Bit r (o.getLsbD (7 - i))) r := by
  have hbits : bitsBE 8 o.toNat = (List.range 8).map fun i => o.getLsbD (7 - i) := by
    simp [bitsBE, BitVec.getLsbD, List.range_succ]
  rw [crc16Octet, hbits, List.foldl_map]

/-- RESPONSE_SENT with a response on whose sending no restart waits. -/
theorem exec_responseSent {s : State} {l : Link} {dt : Nat} {r : Response} {rest : List Response}
    (hp : s.por = false) (ho : (s.link l).output = r :: rest)
    (h : (s.exe.restartAwaited && r.restartOk) = false) :
    exec (.responseSent l dt) s = .next ((s.wait dt).setLink l ((s.link l).sent r)) := by
  have hw : (s.wait dt).por = false := hp
  have he : (s.wait dt).exe.restartAwaited = s.exe.restartAwaited := rfl
  simp only [exec, execResponseSent, State.link_wait, ho, hw, he, h, Bool.false_eq_true, if_false]

end Sys2Proof.Machine

namespace Sys2Proof

open Sys2Proof.Machine

/-- Settles O7: the parser collects the frame, whose check holds. -/
theorem requestFrameIsReceivedWhole : Obligations.RequestFrameIsReceivedWhole := by
  intro l q dt s hp hrx hargs
  refine ⟨(s.wait dt).rxKeep l .hunt, ?_, State.wait_rxKeep_hunt s l dt⟩
  have hbody : (octetsBE 2 q.tag.toNat ++ q.code :: q.args).length = q.args.length + 3 := by
    simp [octetsBE_two]
  have hframe := State.rxOctets_frame (s := s.wait dt) (l := l) (by rwa [State.link_wait])
    (body := octetsBE 2 q.tag.toNat ++ q.code :: q.args) (by omega) (by omega)
    (crc16 (octetsBE 1 (octetsBE 2 q.tag.toNat ++ q.code :: q.args).length ++
      (octetsBE 2 q.tag.toNat ++ q.code :: q.args)))
  rw [if_pos rfl] at hframe
  rw [exec_linkFrameReceived hp, Request.frame, linkFrame]
  refine congrArg Host.Outcome.next (hframe.trans ?_)
  simp [octetsBE_two, State.frameArrived, extractLsb'_append_halves]

/-- Settles O8: each cause puts the parser into HUNT and counts the frame. -/
theorem discardedFrameIsCounted : Obligations.DiscardedFrameIsCounted := by
  refine ⟨fun l body check dt s hp hrx h3 h60 hcheck => ?_, fun l s hp hrx => ?_,
    fun l dt s hp hrx => ?_, fun l o dt s hp hrx ho => ?_, fun l dt s hp hrx => ⟨?_, ?_⟩⟩
  · refine ⟨(s.wait dt).rxKeep l .hunt, ?_, State.wait_rxKeep_hunt s l dt⟩
    rw [exec_linkFrameReceived hp,
      State.rxOctets_frame (by rwa [State.link_wait]) h3 h60, if_neg hcheck]
  · have hr : s.receiving l = true := by simpa [State.receiving] using hrx
    have hx : exec (.linkGapExpiry l) s = .next ((s.waitUntil (s.link l).gapAt).rxDiscard l) := by
      simp [exec, execLinkGapExpiry, hp, hr]
    rw [hx]
    cases l <;> rfl
  · have hr : (s.wait dt).receiving l = true := by
      rw [State.receiving, State.link_wait]
      simpa using hrx
    have hx : exec (.linkFramingError l dt) s = .next ((s.wait dt).rxDiscard l) := by
      simp [exec, execLinkFramingError, hp, hr]
    rw [hx]
    cases l <;> rfl
  · have hlen : ¬(3 ≤ o.toNat ∧ o.toNat ≤ 60) := by omega
    have hoct : (s.wait dt).rxOctet l o = (s.wait dt).rxDiscard l := by
      simp only [State.rxOctet, State.link_wait, hrx, if_neg hlen]
    rw [show exec (.lengthOctetInvalid l o dt) s = .next ((s.wait dt).rxOctet l o) by
      simp [exec, execLengthOctetInvalid, hp], hoct]
    cases l <;> rfl
  · simp [exec, execLinkGapExpiry, State.receiving, hrx]
  · have hr : (s.wait dt).receiving l = false := by
      rw [State.receiving, State.link_wait]
      simpa using hrx
    simp [exec, execLinkFramingError, hr]
    rfl

/-- Settles O6: the link, its relay responses, its view and its mask, and the restart that waited. -/
theorem linkBreakResetsItsLinkAlone : Obligations.LinkBreakResetsItsLinkAlone := by
  intro l dt s hp t
  have ht : ((s.wait dt).clearLink l).resetView l = t := by cases l <;> rfl
  have hexec : exec (.linkBreak l dt) s = .next ((s.wait dt).linkReset l) := by
    simp [exec, execLinkBreak, hp]
  have hcond : ((s.wait dt).exe.restartAwaited &&
      ((s.wait dt).link l).output.any Response.restartOk) = true ↔
      s.exe.restartAwaited = true ∧
        ∃ r ∈ (s.link l).output, r.code = 0x92 ∧ r.result = .ok ∧ r.atOnce = false := by
    simp [State.link_wait, Response.restartOk, and_assoc]
  refine ⟨fun h => ?_, fun h => ?_⟩
  · rw [hexec, State.linkReset, if_neg, ht]
    rw [hcond]
    rintro ⟨hr, r, hm, hok⟩
    rcases h with h | h
    · simp [h] at hr
    · exact h r hm hok
  · rw [hexec, State.linkReset, if_pos (hcond.mpr h), ht]
    have hpt : t.por = false := by cases l <;> exact hp
    have hwait : t.wait 0 = t := rfl
    have hfall : exec (.restartNFall 0) t = .next t.stationRestart := by
      simp only [exec, execRestartNFall, hwait, hpt, Bool.false_eq_true, if_false]
    rw [hfall]

/-- Settles O9: the order of the decision, the catalogue row by row, and the response's octets. -/
theorem outstandingListIsKept : Obligations.OutstandingListIsKept := by
  refine ⟨fun s l q => ?_, fun l dt s hp => ?_, ?_, fun args => ?_, fun s l hp => ?_, rfl, fun xs o => ?_⟩
  · have harrive : (s.link l).outstanding.length < 8 → ¬8 ≤ (s.link l).outstanding.length := by omega
    refine ⟨fun h => ?_, fun h hcode => ?_, fun h hfit => ?_, fun h hfit => ?_⟩
    · simp only [State.arrive, if_pos h, State.giveAtOnce_eq]
    · have hnone : argsFit q.code q.args = none := by
        refine argsFit_none _ (fun he => hcode (by simp [he])) fun hm => hcode ?_
        simp only [catalogue, List.map_append, List.map_cons, List.map_nil] at hm
        revert hm
        generalize q.code = code
        revert code
        decide
      simp only [State.arrive, if_neg (harrive h), hnone, State.giveAtOnce_eq]
    · simp only [State.arrive, if_neg (harrive h), hfit, State.giveAtOnce_eq]
    · simp only [State.arrive, if_neg (harrive h), hfit]
  · refine ⟨fun ho => ?_, fun r rest ho hr => ?_⟩
    · simp only [exec, execResponseSent, State.link_wait, ho]
      rfl
    · have hnot : (s.exe.restartAwaited && r.restartOk) = false := by
        rcases hr with hr | hr
        · simp [hr]
        · rw [Bool.and_eq_false_iff]
          right
          simpa [Response.restartOk, and_assoc] using hr
      refine ⟨removeFirst (Outstanding.answeredBy r) (s.link l).outstanding, ?_, fun ha => ?_,
        fun ha before e after hlist he hbefore => ?_⟩
      · rw [exec_responseSent hp ho hnot, LinkState.sent, ho]
        rfl
      · exact removeFirst_eq_self fun x _ => by simp [Outstanding.answeredBy, ha]
      · rw [hlist]
        refine removeFirst_append (by simp [Outstanding.answeredBy, ha, he]) fun x hx => ?_
        have := hbefore x hx
        simp only [Outstanding.answeredBy, ha]
        simpa [and_assoc] using this
  · have hrows : ∀ row ∈ ([
        (0, [0x01, 0x05, 0x10, 0x23, 0x31, 0x32, 0x33, 0x41, 0x71, 0x92]),
        (1, [0x04, 0x20, 0x22, 0x40, 0x42, 0x44, 0x51, 0x52, 0x53, 0x55, 0x61, 0x62, 0x70, 0x82, 0x91]),
        (2, [0x21, 0x54, 0x80]), (3, [0x83, 0x90]), (4, [0x02, 0x03, 0x43, 0x81]), (5, [0x06, 0x11]),
        (6, [0x30]), (8, [0x50])] : List (Nat × List Octet)),
        ∀ code ∈ row.2, code ≠ 0x60 ∧ catalogue.lookup code = some row.1 := by decide
    intro n codes hm code hc args
    obtain ⟨hne, hlookup⟩ := hrows _ hm code hc
    exact argsFit_lookup args hne hlookup
  · exact argsFit_writeNotice args
  · refine ⟨fun ho => by simp [State.txLine, hp, ho], fun r rest ho => ?_⟩
    have hcode : r.result.code = (match r.result with
        | .ok => 0
        | .pending => 1
        | .busy => 2
        | .unknown => 3
        | .badLength => 4
        | .badArgument => 5
        | .notReady => 6
        | .inUse => 7
        | .onAir => 8
        | .conflict => 9
        | .tooLate => 10
        | .full => 11
        | .notFound => 12
        | .noAnswer => 13 : Octet) := by cases r.result <;> rfl
    rw [State.txLine, hp, if_neg Bool.false_ne_true, ho, List.head?_cons, Option.map_some,
      Response.frame_eq, hcode]
    rfl
  · rw [crc16, List.foldl_append, List.foldl_cons, List.foldl_nil, crc16Octet_eq]
    rfl

end Sys2Proof

/-! Every request that the executor takes up completes with one response or enters the relay queue
(R210..R213). -/

namespace Sys2Proof.Machine

/-! ## The entry that is taken up -/

/-- The first element that satisfies `p` is the first that satisfies `p'`, if it satisfies `p'` and `p'`
implies `p`. -/
theorem updateFirst_congr {α : Type} {p p' : α → Bool} (f : α → α) {xs : List α} {e : α}
    (he : xs.find? p = some e) (he' : p' e = true) (h : ∀ x, p' x = true → p x = true) :
    updateFirst p' f xs = updateFirst p f xs := by
  induction xs with
  | nil => rfl
  | cons x xs ih =>
    simp only [updateFirst]
    cases hp : p x with
    | true =>
      rw [List.find?_cons_of_pos hp] at he
      obtain rfl := Option.some.inj he
      simp [he']
    | false =>
      have hp' : p' x = false := by
        cases hx : p' x with
        | false => rfl
        | true => rw [h x hx] at hp; cases hp
      rw [List.find?_cons_of_neg (by simp [hp])] at he
      simp [hp', ih he]

/-- The oldest WAITING entry is the one that its request's TAG and CODE mark. -/
theorem LinkState.mark_oldestWaiting {ls : LinkState} {q : Request} (h : ls.oldestWaiting = some q)
    (st : EntryState) :
    (ls.mark q.tag q.code .waiting st).outstanding =
      updateFirst (fun e => e.st = .waiting)
        (fun e => { e with st := st, relayed := e.relayed || decide (st = .inRelay) }) ls.outstanding := by
  obtain ⟨e, he, rfl⟩ : ∃ e, ls.outstanding.find? (·.st = .waiting) = some e ∧ e.req = q := by
    simpa [LinkState.oldestWaiting, Option.map_eq_some_iff] using h
  have hst : e.st = .waiting := by simpa using List.find?_some he
  exact updateFirst_congr _ he (by simp [hst]) fun x hx => by simp_all

/-! ## What an owning block leaves of the executor -/

/-- No owning block moves the executor's turn. -/
theorem act_turn (c : Instr) (s : State) :
    (c.act s).state.exe.turn = s.exe.turn ∧ (c.act s).state.exe.count = s.exe.count := by
  cases c
  all_goals
    simp only [Instr.act, actReadStatus, actSetAlertMask, actSetFaultMask, actReadCounters, actTickNow,
      actSetThreshold, actReadTime, actStepTime, actSelectReference, actSetRefEnable, actSetSelectMode,
      actReadReferences, actSetSynth, actSynthOn, actSynthOff, actReadSynth, actReadKeyer,
      actPostChange, actWithdrawChange, actReadSchedule, actReadRetired, actSetZone, actSelectZone,
      actWriteNotice, actSelectNotice, actReadNotice, actReadMonitor, actInjectMonitorError,
      actModuleRead, actModuleWrite, State.relay, actReadModules, actSetScan, actSetParam, actReadParam,
      actRestart, State.refuseReading, actSetMode, actKillCarrier, actSetHold, actMaintenance,
      State.requestOnAir]
    (repeat' split) <;> simp

/-- Only MODULE_READ and MODULE_WRITE leave their answer to a transaction (R160). -/
theorem act_cases (c : Instr) (s : State) :
    (∃ r data x, c.act s = .answered r data x) ∨
      (∃ x, c.act s = .relayed x) ∧
        ∀ l q, c.asRequest = some (l, q) → q.code = 0x80 ∨ q.code = 0x81 := by
  cases c
  case moduleRead =>
    simp only [Instr.act, actModuleRead, State.relay, Instr.asRequest]
    repeat' split
    · exact .inl ⟨_, _, _, rfl⟩
    · exact .inl ⟨_, _, _, rfl⟩
    · refine .inr ⟨⟨_, rfl⟩, fun l q h => .inl ?_⟩
      obtain ⟨-, rfl⟩ := Prod.mk.inj (Option.some.inj h)
      rfl
  case moduleWrite =>
    simp only [Instr.act, actModuleWrite, State.relay, Instr.asRequest]
    repeat' split
    · exact .inl ⟨_, _, _, rfl⟩
    · exact .inl ⟨_, _, _, rfl⟩
    · refine .inr ⟨⟨_, rfl⟩, fun l q h => .inr ?_⟩
      obtain ⟨-, rfl⟩ := Prod.mk.inj (Option.some.inj h)
      rfl
  all_goals
    left
    simp only [Instr.act, actReadStatus, actSetAlertMask, actSetFaultMask, actReadCounters, actTickNow,
      actSetThreshold, actReadTime, actStepTime, actSelectReference, actSetRefEnable, actSetSelectMode,
      actReadReferences, actSetSynth, actSynthOn, actSynthOff, actReadSynth, actReadKeyer,
      actPostChange, actWithdrawChange, actReadSchedule, actReadRetired, actSetZone, actSelectZone,
      actWriteNotice, actSelectNotice, actReadNotice, actReadMonitor, actInjectMonitorError,
      actReadModules, actSetScan, actSetParam, actReadParam,
      actRestart, State.refuseReading, actSetMode, actKillCarrier, actSetHold, actMaintenance,
      State.requestOnAir]
    (repeat' split) <;> exact ⟨_, _, _, rfl⟩

theorem act_link (c : Instr) (s : State) (l : Link) : (c.act s).state.link l = s.link l := by
  obtain ⟨-, -, -, -, -, hA, hB, -⟩ := act_frame c s
  cases l
  · exact hA
  · exact hB

/-! ## The execution of a chosen request -/

theorem State.link_settle (s : State) (l : Link) : s.settle.link l = s.link l := by
  cases l <;> simp

theorem State.exec_chosen {c : Instr} {s : State} {l : Link} {q : Request}
    (hc : c.asRequest = some (l, q)) (hp : s.por = false) (h : s.choice = some (l, q)) :
    exec c s = .next ((c.act { s with exe := s.exe.serve l }).finish l q.tag q.code).settle := by
  rw [Instr.exec_request hc, State.request_chosen hp h]

end Sys2Proof.Machine

namespace Sys2Proof

open Sys2Proof.Machine

/-- Settles O11: the owning block answers, or enters the relay queue, and leaves the links alone. -/
theorem chosenRequestIsExecuted : Obligations.ChosenRequestIsExecuted := by
  refine ⟨fun c s l q hc ht => ?_, fun c s l q hc hp => ⟨fun hw hn => ?_, fun hw hlen hfit => ?_⟩⟩
  · obtain ⟨hp, hchoice⟩ := (State.takesUp_iff hc).mp ht
    have hold := State.choice_oldest hchoice
    have hturn := act_turn c { s with exe := s.exe.serve l }
    have hlink := act_link c { s with exe := s.exe.serve l }
    have hmark := LinkState.mark_oldestWaiting hold
    rw [State.exec_chosen hc hp hchoice]
    obtain ⟨r, data, x, hx⟩ | ⟨⟨x, hx⟩, hcode⟩ := act_cases c { s with exe := s.exe.serve l }
    · rw [hx] at hturn hlink
      have hl : x.link l = s.link l := (hlink l).trans (by cases l <;> rfl)
      have ho : x.link l.other = s.link l.other := (hlink l.other).trans (by cases l <;> rfl)
      refine ⟨_, .answered, rfl, ?_, ?_, ?_, .inl ⟨rfl, r, data, ?_⟩⟩
      · simpa [hx, Acted.finish] using hturn
      · simpa [hx, Acted.finish, State.link_settle, State.respond] using ho
      · simpa [hx, Acted.finish, State.link_settle, State.respond, hl] using hmark .answered
      · simp [hx, Acted.finish, State.link_settle, State.respond, hl, LinkState.mark]
    · rw [hx] at hturn hlink
      have hl : x.link l = s.link l := (hlink l).trans (by cases l <;> rfl)
      have ho : x.link l.other = s.link l.other := (hlink l.other).trans (by cases l <;> rfl)
      refine ⟨_, .inRelay, rfl, ?_, ?_, ?_, .inr ⟨rfl, hcode l q hc, ?_⟩⟩
      · simpa [hx, Acted.finish] using hturn
      · simpa [hx, Acted.finish, State.link_settle] using ho
      · simpa [hx, Acted.finish, State.link_settle, hl] using hmark .inRelay
      · simp [hx, Acted.finish, State.link_settle, hl, LinkState.mark]
  · have htaken : s.ensureTaken l q = s := by
      obtain ⟨e, he, hst, hq⟩ := hw
      rw [State.ensureTaken, if_pos]
      exact List.any_eq_true.mpr ⟨e, he, by simp [hst, hq]⟩
    rw [Instr.exec_request hc]
    simp [State.request, hp, htaken, hn]
  · have harrive : s.ensureTaken l q = s.setLink l
        { s.link l with outstanding := (s.link l).outstanding ++ [⟨q, .waiting, false⟩] } := by
      rw [State.ensureTaken, if_neg]
      · simp only [State.arrive, if_neg (not_le.mpr hlen), hfit]
      · simp only [List.any_eq_true, not_exists, not_and]
        exact fun e he h => hw e he (by simpa using h)
    have hthere : (s.setLink l
        { s.link l with outstanding := (s.link l).outstanding ++ [⟨q, .waiting, false⟩] }).ensureTaken l q =
        s.setLink l { s.link l with outstanding := (s.link l).outstanding ++ [⟨q, .waiting, false⟩] } := by
      rw [State.ensureTaken, if_pos]
      simp
    rw [Instr.exec_request hc, Instr.exec_request hc]
    simp only [State.request, harrive, hthere, State.setLink_frame, hp, Bool.false_eq_true, if_false]

end Sys2Proof

/-! The resets in full (R218..R220): the held reset, the power-on start, and the station restart that keeps
the carry-over context. -/

namespace Sys2Proof.Machine

/-! ## The held reset (R220) -/

/-- `t` differs from `s` in the time and the input levels alone. -/
def State.Frozen (s t : State) : Prop :=
  t = { s with now := t.now, txReady := t.txReady, monIn := t.monIn, freqFrom := t.freqFrom }

@[simp] theorem State.Frozen.refl (s : State) : s.Frozen s := rfl

@[simp] theorem State.frozen_wait (s : State) (dt : Nat) : s.Frozen (s.wait dt) := rfl

@[simp] theorem State.frozen_monIn (s : State) (dt : Nat) (level : Bool) :
    s.Frozen { s.wait dt with monIn := level } := rfl

theorem State.monLine_held {s : State} (hp : s.por = true) (level : Bool) :
    s.monLine level = { s with monIn := level } := by
  simp only [State.monLine, hp, Bool.true_or, if_true]

/-- While POR_N is at 0 a command other than its rise changes the time and the input levels alone. -/
theorem exec_held {c : Instr} {s : State} (hp : s.por = true) (hc : ∀ dt, c ≠ .powerOnReset dt) :
    ∃ t, exec c s = .next t ∧ s.Frozen t := by
  by_cases hr : c.asRequest.isSome = true
  case pos =>
    obtain ⟨⟨l, q⟩, hlq⟩ := Option.isSome_iff_exists.mp hr
    rw [Instr.exec_request hlq]
    exact ⟨s, by simp [State.request, hp], rfl⟩
  case neg =>
    have hpw (dt : Nat) : (s.wait dt).por = true := hp
    cases c <;> simp [Instr.asRequest] at hr
    case powerOnReset dt => exact absurd rfl (hc dt)
    case powerOnResetAssert dt =>
      refine ⟨_, rfl, ?_⟩
      simp [State.Frozen, hp]
    case freqInAbsent n dt =>
      refine ⟨_, rfl, ?_⟩
      simp [hp, State.Frozen]
    case txReadyChange level dt =>
      refine ⟨_, rfl, ?_⟩
      simp [hp, State.Frozen]
    case monInRise dt =>
      refine ⟨_, rfl, ?_⟩
      split
      · exact s.frozen_wait dt
      · rw [State.monLine_held (hpw dt)]
        exact s.frozen_monIn dt true
    case monInFall dt =>
      refine ⟨_, rfl, ?_⟩
      split
      · rw [State.monLine_held (hpw dt)]
        exact s.frozen_monIn dt false
      · exact s.frozen_wait dt
    all_goals
      refine ⟨_, rfl, ?_⟩
      (repeat' split) <;> simp_all

/-! ## The power-on start (R220) -/

/-- The causes at the start: time UNSET, both ports not QUALIFIED, and FREQ_LOSS without FREQ_IN. -/
theorem State.powerUp_causes (s : State) : s.powerUp.causes =
    [true, false, false, true, true, false, !s.freqPresent, false, false, false, false, false, false] := by
  cases hf : s.freqPresent <;>
    simp [State.causes, hf, Timebase.reset, RefPort.reset, Selector.reset, Synth.reset, Keyer.reset,
      Keyer.onAir, Monitor.reset, State.patternUnsync, show Bus.reset.alarm = false by decide]

theorem State.powerUp_cond (s : State) : s.powerUp.cond = { Conditions.reset with
    active := s.powerUp.activeNow, viewA := s.powerUp.activeNow.setWidth 25,
    viewB := s.powerUp.activeNow.setWidth 25 } := rfl

theorem State.powerUp_activeNow (s : State) : s.powerUp.activeNow =
    if s.freqPresent then Conditions.reset.active else Conditions.reset.active ||| BitVec.twoPow 13 6 := by
  refine BitVec.eq_of_getLsbD_eq fun i hi => ?_
  rw [State.activeNow_getLsbD, State.powerUp_causes]
  cases s.freqPresent <;> interval_cases i <;> decide

theorem State.powerUp_cond_present {s : State} (h : s.freqPresent = true) :
    s.powerUp.cond = Conditions.reset := by
  rw [State.powerUp_cond, State.powerUp_activeNow, h]
  decide

/-- Both lines are asserted by the ports and by TIME_UNSET already. -/
theorem State.powerUp_alertLine (s : State) (l : Link) : s.powerUp.alertLine l = true := by
  have hpor : s.powerUp.por = false := by simp
  rw [State.alertLine, State.powerUp_cond, State.powerUp_activeNow, hpor]
  cases s.freqPresent <;> cases l <;> decide

/-- FAULT_OUT is asserted by FREQ_LOSS alone. -/
theorem State.powerUp_faultLine (s : State) : s.powerUp.faultLine = !s.freqPresent := by
  have hpor : s.powerUp.por = false := by simp
  rw [State.faultLine, State.powerUp_cond, State.powerUp_activeNow, hpor]
  cases s.freqPresent <;> decide

theorem State.powerUp_presence (s : State) : s.powerUp.presence = 0 := by
  unfold State.presence
  split
  · rfl
  · simp

/-! ## The station restart (R218) -/

theorem State.stationRestart_keeping {s : State} (h : s.params.carryOver = true) :
    s.stationRestart = s.restartKeeping := if_pos h

theorem State.stationRestart_powerUp {s : State} (h : s.params.carryOver = false) :
    s.stationRestart = s.powerUp := if_neg (by simp [h])

theorem exec_restartNFall {s : State} (hp : s.por = false) (dt : Nat) :
    exec (.restartNFall dt) s = .next (s.wait dt).stationRestart := by
  have hw : (s.wait dt).por = false := hp
  simp only [exec, execRestartNFall, hw, Bool.false_eq_true, if_false]

/-- The scan table and the queue of the bus are cleared, and the scan begins at the first address. -/
theorem State.restartBus_bus (s : State) : s.restartBus.bus = { s.bus with
    table := Vector.replicate 31 ScanRec.reset, queue := [], pos := s.bus.first
    txn := if s.params.scanEnable then some (s.firstAttempt true s.bus.first 0 none) else none } := by
  unfold State.restartBus State.chooseNext
  simp only [List.find?_nil]
  split <;> rfl

theorem Bus.record_of_cleared {b : Bus} (h : b.table = Vector.replicate 31 ScanRec.reset) (a : Nat) :
    b.record a = ScanRec.reset := by
  rw [Bus.record, h, Vector.getElem?_replicate]
  split <;> rfl

theorem State.restartKeeping_bus (s : State) : s.restartKeeping.bus = { s.bus with
    table := Vector.replicate 31 ScanRec.reset, queue := [], pos := s.bus.first
    txn := if s.params.scanEnable then some (s.firstAttempt true s.bus.first 0 none) else none } := by
  have h := State.restartBus_bus { s with
    linkA := LinkState.reset, linkB := LinkState.reset, exe := Executor.reset, mon := s.monitorRestart
    cond := s.cond.carryOver }
  exact h

/-- The links and the executor return to their reset values, and the conditions keep their thresholds, their
fault mask and their active set. -/
theorem State.restartKeeping_rest (s : State) :
    s.restartKeeping.linkA = LinkState.reset ∧ s.restartKeeping.linkB = LinkState.reset ∧
      s.restartKeeping.exe = Executor.reset ∧ s.restartKeeping.mon = s.monitorRestart ∧
      s.restartKeeping.cond = { s.cond.carryOver with
        active := s.restartKeeping.activeNow, viewA := s.restartKeeping.activeNow.setWidth 25
        viewB := s.restartKeeping.activeNow.setWidth 25 } := by
  have hbus := State.restartBus_frame { s with
    linkA := LinkState.reset, linkB := LinkState.reset, exe := Executor.reset, mon := s.monitorRestart
    cond := s.cond.carryOver }
  refine ⟨?_, ?_, ?_, ?_, ?_⟩
  · simp [State.restartKeeping, State.resetViews]
  · simp [State.restartKeeping, State.resetViews]
  · simp [State.restartKeeping, State.resetViews]
  · simp [State.restartKeeping, State.resetViews]
  · have hcond : (State.restartBus { s with
        linkA := LinkState.reset, linkB := LinkState.reset, exe := Executor.reset
        mon := s.monitorRestart, cond := s.cond.carryOver }).cond = s.cond.carryOver := by simp
    unfold State.restartKeeping
    dsimp only
    rw [State.resetViews, hcond]
    rfl

theorem State.monitorRestart_eq (s : State) : s.monitorRestart = { Monitor.reset with
    det := detectorAtStart s.monIn
    timer := if s.params.monitorEnable && s.key.mode = .timeCode then some (s.now + frameTime)
      else none } := by
  unfold State.monitorRestart
  cases s.params.monitorEnable <;> simp [Monitor.turnOn, Monitor.reset]

end Sys2Proof.Machine

namespace Sys2Proof

open Sys2Proof.Machine

/-- Settles O2: the held reset gates every output, and every command but the rise looks at it first. -/
theorem heldPowerOnResetSilencesThePart : Obligations.HeldPowerOnResetSilencesThePart := by
  refine ⟨fun dt s => ⟨_, rfl, rfl, ?_⟩, fun c s hp hc => exec_held hp hc⟩
  simp [State.carrierEnable, State.amplitude, State.carrOut, State.faultLine, State.alertLine,
    State.txLine]

/-- Settles O3: the power-on state block by block, and its active set by its causes. -/
theorem powerOnResetStartsEveryBlock : Obligations.PowerOnResetStartsEveryBlock := by
  intro dt s
  refine ⟨(s.wait dt).powerUp, rfl, by simp, by simp, by simp, by simp, by simp, by simp, by simp, by simp,
    by simp, by simp, by simp, by simp, by simp, by simp, by simp, ?_, ?_, ?_, ?_, ?_, ?_⟩
  · simp [detectorAtStart]
  · exact State.powerUp_presence _
  · intro h
    have hf : (s.wait dt).freqPresent = true := decide_eq_true h
    exact ⟨by simp [hf, Timebase.reset], State.powerUp_cond_present hf,
      by rw [State.powerUp_faultLine, hf]; rfl⟩
  · intro h
    have hf : (s.wait dt).freqPresent = false := decide_eq_false (not_le.mpr h)
    refine ⟨by simp [hf], ?_, rfl, rfl, by rw [State.powerUp_faultLine, hf]; rfl⟩
    rw [State.powerUp_cond, State.powerUp_activeNow, hf]
    rfl
  · exact State.powerUp_alertLine _ .a
  · exact State.powerUp_alertLine _ .b

/-- Settles O5: what each block of the restart leaves, and each command that makes it. -/
theorem restartKeepsTheCarryOverContext : Obligations.RestartKeepsTheCarryOverContext := by
  refine ⟨fun dt s hp => ⟨fun hcarry => ?_, fun hcarry => ?_⟩, fun l tag s ht => ?_, fun dt s hp => ?_,
    fun dt l s r rest hp hr ho hok => ?_, fun dt s t hp hx => ?_⟩
  · obtain ⟨hA, hB, hexe, hmon, hcond⟩ := (s.wait dt).restartKeeping_rest
    have hkeep := State.stationRestart_keeping (s := s.wait dt) hcarry
    refine ⟨(s.wait dt).restartKeeping, by rw [exec_restartNFall hp, hkeep], by simp, by simp, by simp,
      by simp, by simp, by simp, by simp, by simp, by simp, hA, hB, hexe, ?_, ?_, ?_, ?_, ?_, ?_, ?_, ?_,
      ?_, ?_, fun l => ?_, ?_⟩
    · rw [State.restartKeeping_bus]
      rfl
    · rw [State.restartKeeping_bus]
    · rw [State.restartKeeping_bus]
      exact fun a => Bus.record_of_cleared rfl a
    · rw [State.restartKeeping_bus]
      dsimp only
      split <;> simp_all [State.firstAttempt]
    · rw [hmon]
      exact State.monitorRestart_eq (s.wait dt)
    · simp [hp]
      rfl
    · rw [hcond]
      rfl
    · rw [hcond]
      rfl
    · rw [hcond]
      rfl
    · rw [hcond]
      rfl
    · rw [hcond]
      cases l <;> exact ⟨rfl, rfl⟩
    · rw [hcond]
  · rw [exec_restartNFall hp, State.stationRestart_powerUp (s := s.wait dt) hcarry]
    rfl
  · exact State.answers_of ht rfl (fun _ => rfl) rfl
  · refine ⟨fun hr => ⟨_, ?_, exec_restartNFall hp dt⟩, fun hr => ?_⟩
    · have hw : (s.wait dt).por = false := hp
      have he : (s.wait dt).exe.restartAwaited = true := hr
      simp only [exec, execAwaitedRestart, hw, he, Bool.not_true, Bool.or_self, Bool.false_eq_true,
        if_false]
    · have he : (s.wait dt).exe.restartAwaited = false := hr
      simp only [exec, execAwaitedRestart, he, Bool.not_false, Bool.or_true, if_true]
      rfl
  · have hw : (s.wait dt).por = false := hp
    have he : (s.wait dt).exe.restartAwaited = true := hr
    have hrestart : r.restartOk = true := by simp [Response.restartOk, hok]
    have hsent : ((s.wait dt).setLink l ((s.link l).sent r)) =
        (s.setLink l ((s.link l).sent r)).wait dt := by cases l <;> rfl
    rw [exec_restartNFall (by simpa using hp)]
    simp only [exec, execResponseSent, State.link_wait, ho, hw, he, hrestart, Bool.and_self, if_true,
      Bool.false_eq_true, if_false, hsent]
  · rw [exec_restartNFall hp] at hx
    obtain rfl := Host.Outcome.next.inj hx
    unfold State.stationRestart
    split
    · rw [(State.restartKeeping_rest _).2.2.1]
      rfl
    · simp [Executor.reset]

end Sys2Proof

/-! What a counted second edge leaves of the timebase (R23..R29, R32), and the sources (R19..R21). -/

namespace Sys2Proof.Machine

/-! ## The parts of an edge -/

theorem State.edgeBegun_eq (s : State) : s.edgeBegun = (s.waitUntil s.tb.due).edgeStarted .counted := rfl

/-- After the pulses an edge changes no more of the timebase than the minute length handed over and the
waiting phase step. -/
@[simp] theorem State.edgeFinished_tb (s : State) :
    s.edgeFinished.tb.timeSet = s.tb.timeSet ∧ s.edgeFinished.tb.day = s.tb.day ∧
      s.edgeFinished.tb.sec = s.tb.sec ∧ s.edgeFinished.tb.minLen = s.tb.minLen ∧
      s.edgeFinished.tb.freeSec = s.tb.freeSec ∧ s.edgeFinished.tb.freeMin = s.tb.freeMin ∧
      s.edgeFinished.tb.disc = s.tb.disc ∧ s.edgeFinished.tb.holdAge = s.tb.holdAge ∧
      s.edgeFinished.tb.source = s.tb.source ∧ s.edgeFinished.tb.trim = s.tb.trim ∧
      s.edgeFinished.tb.trimValid = s.tb.trimValid ∧ s.edgeFinished.tb.k = s.tb.k ∧
      s.edgeFinished.tb.winCount = s.tb.winCount ∧ s.edgeFinished.tb.winSum = s.tb.winSum ∧
      s.edgeFinished.tb.begunLocked = s.tb.begunLocked ∧ s.edgeFinished.tb.corr = s.tb.corr ∧
      s.edgeFinished.tb.slewing = s.tb.slewing ∧ s.edgeFinished.tb.lastCorr = s.tb.lastCorr ∧
      s.edgeFinished.tb.lastSlew = s.tb.lastSlew ∧ s.edgeFinished.tb.edgeAt = s.tb.edgeAt ∧
      s.edgeFinished.tb.edgeMade = s.tb.edgeMade ∧ s.edgeFinished.tb.length = s.tb.length ∧
      s.edgeFinished.tb.acq = s.tb.acq ∧ s.edgeFinished.tb.pendingStep = s.tb.pendingStep := by
  simp only [State.edgeFinished]
  repeat' split
  all_goals simp

/-- The sections of the part that no second edge enters. -/
@[simp] theorem State.edgeFinished_frame (s : State) :
    s.edgeFinished.por = s.por ∧ s.edgeFinished.txReady = s.txReady ∧ s.edgeFinished.monIn = s.monIn ∧
      s.edgeFinished.freqFrom = s.freqFrom ∧ s.edgeFinished.now = s.now ∧
      s.edgeFinished.params = s.params ∧ s.edgeFinished.synth = s.synth ∧
      s.edgeFinished.sel = s.sel ∧
      s.edgeFinished.bus = s.bus ∧ s.edgeFinished.linkA = s.linkA ∧ s.edgeFinished.linkB = s.linkB ∧
      s.edgeFinished.exe = s.exe ∧ s.edgeFinished.pending = s.pending ∧
      s.edgeFinished.freeCount = s.freeCount := by
  simp only [State.edgeFinished]
  repeat' split
  all_goals simp

@[simp] theorem State.edgeStarted_frame (s : State) (kind : EdgeKind) :
    (s.edgeStarted kind).por = s.por ∧ (s.edgeStarted kind).txReady = s.txReady ∧
      (s.edgeStarted kind).monIn = s.monIn ∧ (s.edgeStarted kind).freqFrom = s.freqFrom ∧
      (s.edgeStarted kind).now = s.now ∧ (s.edgeStarted kind).params = s.params ∧
      (s.edgeStarted kind).synth = s.synth ∧ (s.edgeStarted kind).sched = s.sched ∧
      (s.edgeStarted kind).comp = s.comp ∧ (s.edgeStarted kind).bus = s.bus ∧
      (s.edgeStarted kind).linkA = s.linkA ∧ (s.edgeStarted kind).linkB = s.linkB ∧
      (s.edgeStarted kind).exe = s.exe ∧ (s.edgeStarted kind).pending = s.pending ∧
      (s.edgeStarted kind).freeCount = s.freeCount := by
  simp [State.edgeStarted]

/-- The pulses change the discipline, the corrections and what waits alone. -/
@[simp] theorem State.edgeStarted_tb (s : State) (kind : EdgeKind) :
    (s.edgeStarted kind).tb.timeSet = (s.tb.edge kind s.now).timeSet ∧
      (s.edgeStarted kind).tb.day = (s.tb.edge kind s.now).day ∧
      (s.edgeStarted kind).tb.sec = (s.tb.edge kind s.now).sec ∧
      (s.edgeStarted kind).tb.minLen = (s.tb.edge kind s.now).minLen ∧
      (s.edgeStarted kind).tb.handed = (s.tb.edge kind s.now).handed ∧
      (s.edgeStarted kind).tb.freeSec = (s.tb.edge kind s.now).freeSec ∧
      (s.edgeStarted kind).tb.freeMin = (s.tb.edge kind s.now).freeMin ∧
      (s.edgeStarted kind).tb.source = (s.tb.edge kind s.now).source ∧
      (s.edgeStarted kind).tb.trim = (s.tb.edge kind s.now).trim ∧
      (s.edgeStarted kind).tb.trimValid = (s.tb.edge kind s.now).trimValid ∧
      (s.edgeStarted kind).tb.k = (s.tb.edge kind s.now).k ∧
      (s.edgeStarted kind).tb.edgeAt = (s.tb.edge kind s.now).edgeAt ∧
      (s.edgeStarted kind).tb.edgeMade = (s.tb.edge kind s.now).edgeMade ∧
      (s.edgeStarted kind).tb.pendingStep = (s.tb.edge kind s.now).pendingStep := by
  have hbegin : (s.beginEdge kind).tb = s.tb.edge kind s.now := rfl
  simp [State.edgeStarted, hbegin]

/-! ## The timebase's own part of a counted edge (R23..R27, R32) -/

theorem Timebase.learn_keeps (t : Timebase) :
    t.learn.timeSet = t.timeSet ∧ t.learn.day = t.day ∧ t.learn.sec = t.sec ∧ t.learn.minLen = t.minLen ∧
      t.learn.handed = t.handed ∧ t.learn.freeSec = t.freeSec ∧ t.learn.freeMin = t.freeMin ∧
      t.learn.disc = t.disc ∧ t.learn.k = t.k ∧ t.learn.pendingStep = t.pendingStep ∧
      t.learn.stepWaiting = t.stepWaiting ∧ t.learn.source = t.source := by
  unfold Timebase.learn
  repeat' split
  all_goals simp [Timebase.emptyWindow]

/-- The holdover age is no part of broadcast time. -/
theorem Timebase.age_eq (t : Timebase) : ∃ n, t.age = { t with holdAge := n } := by
  unfold Timebase.age
  split
  · exact ⟨_, rfl⟩
  · exact ⟨t.holdAge, rfl⟩

theorem Timebase.advance_keeps (t : Timebase) :
    t.advance.timeSet = t.timeSet ∧ t.advance.freeSec = t.freeSec ∧ t.advance.freeMin = t.freeMin ∧
      t.advance.disc = t.disc ∧ t.advance.trim = t.trim ∧ t.advance.trimValid = t.trimValid ∧
      t.advance.k = t.k ∧ t.advance.winCount = t.winCount ∧ t.advance.winSum = t.winSum ∧
      t.advance.stepWaiting = t.stepWaiting ∧ t.advance.pendingStep = t.pendingStep := by
  unfold Timebase.advance
  split <;> simp

theorem Timebase.advanceFree_keeps (t : Timebase) :
    t.advanceFree.timeSet = t.timeSet ∧ t.advanceFree.disc = t.disc ∧ t.advanceFree.trim = t.trim ∧
      t.advanceFree.trimValid = t.trimValid ∧ t.advanceFree.k = t.k ∧
      t.advanceFree.winCount = t.winCount ∧ t.advanceFree.winSum = t.winSum ∧
      t.advanceFree.stepWaiting = t.stepWaiting ∧ t.advanceFree.pendingStep = t.pendingStep := by
  unfold Timebase.advanceFree
  split <;> simp

/-- Broadcast time at a counted edge, of a timebase that has learnt and aged. -/
theorem Timebase.timeAtEdge_counted (t : Timebase) : t.timeAtEdge .counted =
    match t.pendingStep with
    | some x => { t.setTime x.1 x.2 with pendingStep := none }
    | none => if t.timeSet then t.advance else t.advanceFree := by
  unfold Timebase.timeAtEdge
  cases t.pendingStep <;> rfl

/-- A counted edge in broadcast time: the window learns, the age goes up, time advances, a second
begins. -/
theorem Timebase.edge_counted (t : Timebase) (now : Nat) : ∃ n,
    t.edge .counted now = (Timebase.timeAtEdge { t.learn with holdAge := n } .counted).beginSecond now := by
  obtain ⟨n, hn⟩ := t.learn.age_eq
  exact ⟨n, by rw [← hn]; rfl⟩

theorem Timebase.edge_begun (t : Timebase) (kind : EdgeKind) (now : Nat) :
    (t.edge kind now).edgeAt = now ∧ (t.edge kind now).edgeMade = true ∧ (t.edge kind now).corr = 0 ∧
      (t.edge kind now).slewing = false := ⟨rfl, rfl, rfl, rfl⟩

/-- What a counted edge leaves of the window, the trim, the discipline and the trim position. -/
theorem Timebase.edge_counted_keeps (t : Timebase) (now : Nat) :
    (t.edge .counted now).disc = t.disc ∧ (t.edge .counted now).trim = t.learn.trim ∧
      (t.edge .counted now).trimValid = t.learn.trimValid ∧
      (t.edge .counted now).winCount = t.learn.winCount ∧ (t.edge .counted now).winSum = t.learn.winSum ∧
      (t.edge .counted now).stepWaiting = t.stepWaiting ∧
      (t.edge .counted now).k = (t.k + 1) % 100 ∧
      (t.edge .counted now).length = 10000000 + trimShare (t.edge .counted now).trim t.k := by
  obtain ⟨n, hn⟩ := t.edge_counted now
  obtain ⟨-, -, -, -, -, -, -, hdisc, hk, -, hstep, -⟩ := t.learn_keeps
  rw [hn, Timebase.timeAtEdge_counted]
  cases hp : t.learn.pendingStep with
  | some x => simp [hp, Timebase.beginSecond, Timebase.setTime, hdisc, hk, hstep]
  | none =>
    cases ht : t.learn.timeSet with
    | true => simp [hp, ht, Timebase.beginSecond, Timebase.advance_keeps, hdisc, hk, hstep]
    | false => simp [hp, ht, Timebase.beginSecond, Timebase.advanceFree_keeps, hdisc, hk, hstep]

theorem Timebase.edge_counted_step {t : Timebase} {d x : Nat} (h : t.pendingStep = some (d, x)) (now : Nat) :
    (t.edge .counted now).timeSet = true ∧ (t.edge .counted now).day = d ∧
      (t.edge .counted now).sec = x ∧ (t.edge .counted now).minLen = 60 ∧
      (t.edge .counted now).handed = none ∧ (t.edge .counted now).pendingStep = none ∧
      (t.edge .counted now).freeSec = t.freeSec ∧ (t.edge .counted now).freeMin = t.freeMin := by
  obtain ⟨n, hn⟩ := t.edge_counted now
  obtain ⟨-, -, -, -, -, -, -, -, -, hlearn, -, -⟩ := t.learn_keeps
  have hp : t.learn.pendingStep = some (d, x) := hlearn.trans h
  simp [hn, Timebase.timeAtEdge_counted, hp, Timebase.beginSecond, Timebase.setTime, t.learn_keeps]

theorem Timebase.edge_counted_set {t : Timebase} (h : t.pendingStep = none) (ht : t.timeSet = true)
    (now : Nat) :
    (t.edge .counted now).timeSet = true ∧ (t.edge .counted now).day = t.advance.day ∧
      (t.edge .counted now).sec = t.advance.sec ∧ (t.edge .counted now).minLen = t.advance.minLen ∧
      (t.edge .counted now).handed = t.advance.handed ∧
      (t.edge .counted now).freeSec = t.freeSec ∧ (t.edge .counted now).freeMin = t.freeMin := by
  obtain ⟨n, hn⟩ := t.edge_counted now
  obtain ⟨hset, hday, hsec, hlen, hhanded, hfs, hfm, -, -, hp, -, -⟩ := t.learn_keeps
  simp only [hn, Timebase.timeAtEdge_counted, hp, h, hset, ht, if_true, Timebase.beginSecond,
    Timebase.advance_keeps, hfs, hfm, true_and, and_true]
  simp only [Timebase.advance, Timebase.nextMinuteStart, Timebase.lengthFor, hday, hsec, hlen, hhanded]
  split <;> exact ⟨rfl, rfl, rfl, rfl⟩

theorem Timebase.edge_counted_unset {t : Timebase} (h : t.pendingStep = none) (ht : t.timeSet = false)
    (now : Nat) :
    (t.edge .counted now).timeSet = false ∧
      (t.edge .counted now).freeSec = (if t.freeSec = 59 then 0 else t.freeSec + 1) ∧
      (t.edge .counted now).freeMin = (if t.freeSec = 59 then (t.freeMin + 1) % 1440 else t.freeMin) := by
  obtain ⟨n, hn⟩ := t.edge_counted now
  obtain ⟨hset, -, -, -, -, hfs, hfm, -, -, hp, -, -⟩ := t.learn_keeps
  simp only [hn, Timebase.timeAtEdge_counted, hp, h, hset, ht, Bool.false_eq_true, if_false,
    Timebase.beginSecond]
  simp only [Timebase.advanceFree, hfs, hfm]
  split <;> simp

/-! ## Broadcast time over a minute boundary (R23, R24) -/

theorem Timebase.advance_inMinute {t : Timebase} (h : secondOfMinute t.sec + 1 < t.minLen) :
    t.advance = { t with sec := t.sec + 1 } := by
  rw [Timebase.advance, if_neg (by omega)]

theorem Timebase.advance_minute {t : Timebase} (h : t.minLen = secondOfMinute t.sec + 1) :
    t.advance = { t with
      day := t.nextMinuteStart.1, sec := t.nextMinuteStart.2, handed := none
      minLen := t.lengthFor (linearMinute t.nextMinuteStart.1 (minuteOfDay t.nextMinuteStart.2)) } := by
  rw [Timebase.advance, if_pos (by omega)]

/-- A minute begins at second 0, which is no composition instant. -/
theorem Timebase.secondOfMinute_nextMinuteStart (t : Timebase) :
    secondOfMinute t.nextMinuteStart.2 = 0 := by
  unfold Timebase.nextMinuteStart
  split
  · rfl
  case isFalse h =>
    have hne : 60 * (minuteOfDay t.sec + 1) ≠ 86400 := by omega
    rw [secondOfMinute, if_neg hne]
    omega

/-- At an edge other than a composition instant no minute length is handed over (R101). -/
theorem State.edgeFinished_handed {s : State} (h : s.tb.atComposition = false) :
    s.edgeFinished.tb.handed = s.tb.handed := by
  have hsame (x : State) (hx : x.tb.timeSet = s.tb.timeSet ∧ x.tb.sec = s.tb.sec) :
      x.tb.atComposition = false := by
    rw [Timebase.atComposition, hx.1, hx.2]
    exact h
  have hbound : ((if s.tb.atBoundary then s.minuteBoundary else s).beginSignal s.tb.atBoundary).tb.timeSet =
      s.tb.timeSet ∧ ((if s.tb.atBoundary then s.minuteBoundary else s).beginSignal
        s.tb.atBoundary).tb.sec = s.tb.sec := by
    split <;> simp
  simp only [State.edgeFinished, hsame _ hbound, Bool.false_eq_true, if_false]
  split <;> simp

theorem State.edgeBegun_tb (s : State) :
    s.edgeBegun.tb.handed = (s.tb.edge .counted (max s.now s.tb.due)).handed ∧
      s.edgeBegun.tb.timeSet = (s.tb.edge .counted (max s.now s.tb.due)).timeSet ∧
      s.edgeBegun.tb.sec = (s.tb.edge .counted (max s.now s.tb.due)).sec := by
  simp [State.edgeBegun_eq, State.waitUntil]

/-- The fields of the timebase after SECOND_EDGE that its own part of the edge gives. -/
theorem State.secondEdge_tb (s : State) :
    let t := s.edgeBegun.edgeFinished.settle
    let u := s.tb.edge .counted (max s.now s.tb.due)
    t.tb.timeSet = u.timeSet ∧ t.tb.day = u.day ∧ t.tb.sec = u.sec ∧ t.tb.minLen = u.minLen ∧
      t.tb.freeSec = u.freeSec ∧ t.tb.freeMin = u.freeMin ∧ t.tb.trim = u.trim ∧
      t.tb.trimValid = u.trimValid ∧ t.tb.k = u.k ∧ t.tb.edgeAt = u.edgeAt ∧
      t.tb.edgeMade = u.edgeMade ∧ t.tb.pendingStep = u.pendingStep := by
  simp [State.edgeBegun_eq, State.waitUntil]

theorem State.secondEdge_frame (s : State) :
    let t := s.edgeBegun.edgeFinished.settle
    t.now = max s.now s.tb.due ∧ t = { s with
      now := t.now, tb := t.tb, ref1 := t.ref1, ref2 := t.ref2, sel := t.sel, sched := t.sched
      comp := t.comp, key := t.key, mon := t.mon, cond := t.cond } := by
  refine ⟨by simp [State.edgeBegun_eq, State.waitUntil], ?_⟩
  apply State.ext <;> simp [State.edgeBegun_eq]

end Sys2Proof.Machine

namespace Sys2Proof

open Sys2Proof.Machine

/-- Settles O17: the timebase's part of a counted edge, by a pending step, SET time and UNSET time. -/
theorem secondEdgeAdvancesTime : Obligations.SecondEdgeAdvancesTime := by
  intro s hp hw
  obtain ⟨hset, hday, hsec, hlen, hfs, hfm, -, -, -, -, -, hpend⟩ := s.secondEdge_tb
  refine ⟨s.edgeBegun.edgeFinished.settle, State.exec_secondEdge hp hw, fun d x hstep => ?_,
    fun hstep ht => ?_, fun hstep ht => ?_, s.secondEdge_frame.2⟩
  · obtain ⟨eset, eday, esec, elen, -, epend, efs, efm⟩ :=
      Timebase.edge_counted_step hstep (max s.now s.tb.due)
    simp only [hset, hday, hsec, hlen, hpend, hfs, hfm, eset, eday, esec, elen, epend, efs, efm, and_self]
  · obtain ⟨eset, eday, esec, elen, ehanded, efs, efm⟩ :=
      Timebase.edge_counted_set hstep ht (max s.now s.tb.due)
    refine ⟨hset.trans eset, by rw [hfs, hfm, efs, efm], fun hin => ?_, fun hend => ?_⟩
    · rw [hday, hsec, hlen, eday, esec, elen, Timebase.advance_inMinute hin]
    · have hcomp : s.edgeBegun.tb.atComposition = false := by
        obtain ⟨-, -, hbsec⟩ := s.edgeBegun_tb
        rw [Timebase.atComposition, hbsec, esec, Timebase.advance_minute hend]
        simp [Timebase.secondOfMinute_nextMinuteStart]
      have hhanded : s.edgeBegun.edgeFinished.settle.tb.handed = none := by
        have hsettle : s.edgeBegun.edgeFinished.settle.tb = s.edgeBegun.edgeFinished.tb := by simp
        rw [hsettle, State.edgeFinished_handed hcomp, s.edgeBegun_tb.1, ehanded,
          Timebase.advance_minute hend]
      have hminute : s.edgeBegun.edgeFinished.settle.tb.minute =
          linearMinute s.tb.nextMinuteStart.1 (minuteOfDay s.tb.nextMinuteStart.2) := by
        rw [Timebase.minute, hday, hsec, eday, esec, Timebase.advance_minute hend]
      rw [hday, hsec, hlen, eday, esec, elen, hminute, Timebase.advance_minute hend]
      refine ⟨fun hm => ?_, fun hm hd => ?_, fun hm hd => ?_, hhanded, rfl⟩
      · simp only [Timebase.nextMinuteStart, if_neg (show ¬minuteOfDay s.tb.sec = 1439 by omega)]
      · simp only [Timebase.nextMinuteStart, if_pos hm, if_neg (show ¬s.tb.day = 36524 by omega)]
      · simp only [Timebase.nextMinuteStart, if_pos hm, if_pos hd]
  · obtain ⟨eset, efs, efm⟩ := Timebase.edge_counted_unset hstep ht (max s.now s.tb.due)
    exact ⟨hset.trans eset, hfs.trans efs, hfm.trans efm⟩

end Sys2Proof

/-! The learning window, the length of a second and the sources (R19..R21, R26..R29, R32). -/

namespace Sys2Proof.Machine

/-! ## A selection, and what the timebase makes of it (R30, R31, R36, R53) -/

/-- The port that steers if the selection is `x`. -/
def State.steeringOn (s : State) (x : Option Port) : Option Port :=
  match x with
  | none => none
  | some p => if s.qualified p then some p else none

theorem State.steering_eq (s : State) : s.steering = s.steeringOn s.sel.selection := rfl

theorem State.select_sel (s : State) (x : Option Port) :
    (s.select x).sel = { s.sel with selection := x } := by
  simp [State.select]

theorem State.select_cond (s : State) (x : Option Port) :
    (s.select x).cond = (s.raiseIf (s.sel.selection ≠ x) .refSwitch).cond := by
  by_cases h : s.sel.selection = x <;> simp [State.select, State.raiseIf, State.raise, h]

theorem State.select_tb_eq (s : State) (x : Option Port) :
    (s.select x).tb =
      if s.tb.timeSet then
        match s.steeringOn x with
        | none => if s.tb.disc = .locked then s.tb.leaveLocked else s.tb
        | some p => if s.tb.disc = .locked && x = s.sel.selection then s.tb else (s.enterLocked p).tb
      else { s.tb with acq := s.steeringOn x } := by
  have hraise (b : Bool) : (State.raiseIf { s with sel := { s.sel with selection := x } } b .refSwitch) =
      { s with
        sel := { s.sel with selection := x }
        cond := (s.raiseIf b .refSwitch).cond } := by
    cases b <;> rfl
  have hsteer (c : Conditions) :
      State.steering { s with sel := { s.sel with selection := x }, cond := c } = s.steeringOn x := by
    cases x <;> rfl
  simp only [State.select, hraise, State.follow, hsteer]
  cases s.tb.timeSet with
  | false => rfl
  | true =>
    simp only [if_true]
    cases s.steeringOn x with
    | none => dsimp only; split <;> rfl
    | some p => dsimp only; split <;> rfl

theorem State.select_tb_set {s : State} (h : s.tb.timeSet = true) (x : Option Port) :
    (s.select x).tb = match s.steeringOn x with
      | none => if s.tb.disc = .locked then s.tb.leaveLocked else s.tb
      | some p => if s.tb.disc = .locked && x = s.sel.selection then s.tb else (s.enterLocked p).tb := by
  rw [State.select_tb_eq, if_pos h]

theorem State.select_tb_unset {s : State} (h : s.tb.timeSet = false) (x : Option Port) :
    (s.select x).tb = { s.tb with acq := s.steeringOn x } := by
  rw [State.select_tb_eq, if_neg (by simp [h])]

/-! ## An edge with no pulse to pair (R32) -/

theorem State.pulsesAtEdge_none {s : State} (h1 : s.ref1.openPulses = []) (h2 : s.ref2.openPulses = []) :
    s.pulsesAtEdge .counted = s.portsMoved s := by
  have hopen : ∀ p, (s.port p).openPulses = [] := fun p => by cases p <;> assumption
  have hnone : s.hasOpen = fun _ => false := funext fun p => by simp [State.hasOpen, hopen p]
  have hcorrect : (s.correctOpen .p1).correctOpen .p2 = s := by
    rw [State.correctOpen_none (hopen .p1), State.correctOpen_none (hopen .p2)]
  have hcomplete : (s.completeOpen .p1).completeOpen .p2 = s := by
    rw [State.completeOpen_none (hopen .p1), State.completeOpen_none (hopen .p2)]
  have hslew (s0 t : State) : s0.slewOnEntry t (fun _ => false) = t := by
    unfold State.slewOnEntry
    split
    · rfl
    · exact if_neg (by simp)
  simp [State.pulsesAtEdge, hcorrect, hcomplete, hnone, hslew]

theorem State.leftQualified_self (s : State) (p : Port) : s.leftQualified s p = false := by
  simp [State.leftQualified]

theorem State.autoSelection_self (s : State) : s.autoSelection s = s.sel.selection := by
  unfold State.autoSelection
  split
  case h_1 => simp_all
  case h_2 => simp_all [State.leftQualified_self]
  case h_3 => simp_all [State.becameQualified]

theorem State.portsMoved_self_tb {s : State} (ht : s.tb.timeSet = true) (hd : s.tb.disc = .locked)
    (hs : s.steering.isSome = true) : (s.portsMoved s).tb = s.tb := by
  obtain ⟨p, hp⟩ := Option.isSome_iff_exists.mp hs
  have hclear : s.clearDisagree s = s := by simp [State.clearDisagree, State.leftQualified_self]
  rw [State.portsMoved, hclear, State.autoSelection_self, State.select_tb_set ht,
    ← State.steering_eq, hp]
  simp [hd]

theorem State.edgeStarted_none_tb {s : State} (h1 : s.ref1.openPulses = []) (h2 : s.ref2.openPulses = [])
    (ht : (s.tb.edge .counted s.now).timeSet = true) (hd : s.tb.disc = .locked)
    (hs : s.steering.isSome = true) :
    (s.edgeStarted .counted).tb = { s.tb.edge .counted s.now with begunLocked := true } := by
  have hbegin : (s.beginEdge .counted).tb = s.tb.edge .counted s.now := rfl
  have hedge : (s.beginEdge .counted).tb.disc = .locked := by
    rw [hbegin, (s.tb.edge_counted_keeps s.now).1, hd]
  have hsteer : (s.beginEdge .counted).steering = s.steering := State.steering_congr
    (fun p => by cases p <;> rfl) rfl
  have hmoved := State.portsMoved_self_tb (s := s.beginEdge .counted) ht hedge (by rwa [hsteer])
  have hpulses : ((s.beginEdge .counted).pulsesAtEdge .counted).tb = s.tb.edge .counted s.now := by
    rw [State.pulsesAtEdge_none (s := s.beginEdge .counted) h1 h2, hmoved, hbegin]
  simp only [State.edgeStarted, State.loadLevels_frame, State.markBegun, hpulses]
  rw [hbegin] at hedge
  simp [hedge]

/-! ## The window (R32) -/

theorem Timebase.learn_slewing {t : Timebase} (hb : t.begunLocked = true) (hd : t.disc = .locked)
    (hs : t.slewing = true) : t.learn = t.emptyWindow := by
  simp [Timebase.learn, hb, hd, hs]

theorem Timebase.learn_enters {t : Timebase} (hb : t.begunLocked = true) (hd : t.disc = .locked)
    (hs : t.slewing = false) (hw : t.winCount < 99) :
    t.learn = { t with winCount := t.winCount + 1, winSum := t.winSum + t.corr } := by
  rw [Timebase.learn, if_pos (by simp [hb, hd]), if_neg (by simp [hs]), if_neg (by omega)]

theorem Timebase.learn_hundredth {t : Timebase} (hb : t.begunLocked = true) (hd : t.disc = .locked)
    (hs : t.slewing = false) (hw : t.winCount = 99) :
    t.learn = { t.emptyWindow with
      trim := limit trimBound (t.trim + (t.winSum + t.corr)), trimValid := true } := by
  rw [Timebase.learn, if_pos (by simp [hb, hd]), if_neg (by simp [hs]), if_pos (by omega)]

/-! ## The length of a second (R26..R29) -/

/-- The trim shares of the first `n` seconds add up to the floor of `n` hundredths of the trim. -/
theorem trimShare_sum (T : Int) (n : Nat) :
    ((List.range n).map (trimShare T)).sum = (n : Int) * T / 100 := by
  induction n with
  | zero => simp
  | succ n ih =>
    rw [List.range_succ, List.map_append, List.sum_append, ih]
    simp only [List.map_cons, List.map_nil, List.sum_cons, List.sum_nil, trimShare, Nat.cast_add,
      Nat.cast_one]
    omega

theorem trimShare_floor (T : Int) (k : Nat) : trimShare T k = T / 100 ∨ trimShare T k = T / 100 + 1 := by
  have hmul : ((k : Int) + 1) * T = (k : Int) * T + T := by ring
  rw [trimShare, hmul]
  omega

theorem trimShare_bounds (T : Int) (k : Nat) (h : -5000 ≤ T) (h' : T ≤ 5000) :
    -50 ≤ trimShare T k ∧ trimShare T k ≤ 50 := by
  have hmul : ((k : Int) + 1) * T = (k : Int) * T + T := by ring
  rw [trimShare, hmul]
  omega

/-! ## The corrections of pulses (R29, R33) -/

/-- The length of the second in progress without its corrections. -/
def State.plainLength (s : State) : Int := s.tb.length - s.tb.corr

theorem State.correct_plainLength (s : State) (p : Port) (o : Int) :
    (s.correct p o).plainLength = s.plainLength := by
  simp only [State.plainLength, State.correct]
  repeat' split
  all_goals simp

/-- A port that does not steer in LOCKED corrects nothing. -/
theorem State.correct_idle {s : State} {p : Port} (o : Int)
    (h : ¬(s.tb.disc = .locked ∧ s.sel.selection = some p ∧ s.tb.stepWaiting = false)) :
    s.correct p o = s := by
  unfold State.correct
  split
  case isTrue hc =>
    simp only [Bool.and_eq_true, decide_eq_true_eq, Bool.not_eq_true'] at hc
    exact absurd ⟨hc.1.1, hc.1.2, hc.2⟩ h
  case isFalse => rfl

/-- The correction of an offset by the port that steers. -/
theorem State.correct_steering {s : State} {p : Port} (o : Int) (hd : s.tb.disc = .locked)
    (hs : s.sel.selection = some p) (hw : s.tb.stepWaiting = false) :
    s.correct p o = { s with
      tb := { s.tb with
        length := s.tb.length + correctionOf s.params.slew o
        corr := s.tb.corr + correctionOf s.params.slew o
        slewing := s.tb.slewing || decide (s.params.slew < o.natAbs)
        lastCorr := s.tb.corr + correctionOf s.params.slew o
        lastSlew := s.tb.slewing || decide (s.params.slew < o.natAbs) }
      cond := (if s.params.slew < o.natAbs ∧ s.tb.slewing = false then s.count .slewSeconds 1
        else s).cond } := by
  unfold State.correct
  rw [if_pos (by simp [hd, hs, hw])]
  by_cases hl : s.params.slew < o.natAbs <;> cases hsl : s.tb.slewing <;>
    simp [hl, hsl, State.count]

theorem State.correctOpen_idle {s : State} {p : Port}
    (h : s.sel.selection = some p → (s.port p).openPulses = []) : s.correctOpen p = s := by
  by_cases hs : s.sel.selection = some p
  · exact State.correctOpen_none (h hs)
  · exact foldl_keeps (P := fun t => t = s)
      (fun t u ht => by rw [ht]; exact State.correct_idle _ fun hc => hs hc.2.1) _ _ rfl

theorem State.correctOpen_one {s : State} {p : Port} {u : OpenPulse} (h : (s.port p).openPulses = [u]) :
    s.correctOpen p = s.correct p (s.offsetOf u.at_) := by
  rw [State.correctOpen, h]
  rfl

theorem State.correctOpen_plainLength (s : State) (p : Port) :
    (s.correctOpen p).plainLength = s.plainLength :=
  foldl_keeps (P := fun t : State => t.plainLength = s.plainLength)
    (fun t _ ht => (t.correct_plainLength p _).trans ht) _ _ rfl

/-- The entry to LOCKED slews from an offset known in its event only. -/
theorem State.slewOnEntry_idle {s0 s : State} {known : Port → Bool}
    (h : ∀ p, s.sel.selection = some p → known p = true →
      s0.tb.disc = .locked ∧ s0.sel.selection = some p) : s0.slewOnEntry s known = s := by
  unfold State.slewOnEntry
  split
  case h_1 => rfl
  case h_2 p hp =>
    refine if_neg fun hc => ?_
    simp only [Bool.and_eq_true, Bool.or_eq_true, decide_eq_true_eq] at hc
    obtain ⟨hd, hs⟩ := h p hp hc.1.1
    simp [hd, hs] at hc

theorem State.slewOnEntry_plainLength (s0 s : State) (known : Port → Bool) :
    (s0.slewOnEntry s known).plainLength = s.plainLength := by
  simp only [State.slewOnEntry]
  repeat' split
  · rfl
  · exact State.correct_plainLength _ _ _
  · rfl

theorem State.pulsesAtEdge_plainLength (s : State) : (s.pulsesAtEdge .counted).plainLength = s.plainLength := by
  have hjudge (x : State) : x.judgeAgreement.plainLength = x.plainLength := by simp [State.plainLength]
  have hmoved (x y : State) : (x.portsMoved y).plainLength =
      y.tb.length - (x.portsMoved y).tb.corr := by simp [State.plainLength]
  simp only [State.pulsesAtEdge, if_true]
  split
  all_goals
    simp only [hjudge, State.slewOnEntry_plainLength, hmoved, State.completeOpen_tb, State.portsMoved_tb]
    exact (State.correctOpen_plainLength _ .p2).trans (State.correctOpen_plainLength _ .p1)

/-- The second that a counted edge begins: its trim share and its corrections. -/
theorem State.edgeBegun_length (s : State) :
    s.edgeBegun.tb.length = 10000000 + trimShare s.edgeBegun.tb.trim s.tb.k + s.edgeBegun.tb.corr := by
  have hplain := ((s.waitUntil s.tb.due).beginEdge .counted).pulsesAtEdge_plainLength
  have hedge : ((s.waitUntil s.tb.due).beginEdge .counted).plainLength =
      10000000 + trimShare (s.tb.edge .counted (max s.now s.tb.due)).trim s.tb.k := by
    obtain ⟨-, -, -, -, -, -, -, hlen⟩ := s.tb.edge_counted_keeps (max s.now s.tb.due)
    obtain ⟨-, -, hcorr, -⟩ := s.tb.edge_begun .counted (max s.now s.tb.due)
    have htb : ((s.waitUntil s.tb.due).beginEdge .counted).tb =
      s.tb.edge .counted (max s.now s.tb.due) := rfl
    rw [State.plainLength, htb, hlen, hcorr, sub_zero]
  have htrim : s.edgeBegun.tb.trim = (s.tb.edge .counted (max s.now s.tb.due)).trim := by
    simp [State.edgeBegun_eq, State.waitUntil]
  have hbegun : s.edgeBegun.plainLength =
      (((s.waitUntil s.tb.due).beginEdge .counted).pulsesAtEdge .counted).plainLength := by
    simp [State.plainLength, State.edgeBegun]
  rw [htrim, ← hedge, ← hplain, ← hbegun, State.plainLength]
  omega

/-! ## The ports at an edge (R28, R47) -/

theorem RefPort.judge_keeps (r : RefPort) (q : Params) (u : OpenPulse) (bad : Bool) :
    (r.judge q u bad).openPulses = r.openPulses ∧ (r.judge q u bad).lastOffset = r.lastOffset ∧
      (r.judge q u bad).edgeOffset = r.edgeOffset ∧ (r.judge q u bad).last = r.last ∧
      (r.judge q u bad).waiting = r.waiting ∧ (r.judge q u bad).missed = r.missed ∧
      (r.judge q u bad).watch = r.watch ∧ (r.judge q u bad).lastPulse = r.lastPulse ∧
      (r.judge q u bad).leapDis = r.leapDis ∧ (r.judge q u bad).enable = r.enable ∧
      (r.judge q u bad).rx = r.rx ∧ (r.judge q u bad).rxLate = r.rxLate ∧
      (r.judge q u bad).rxGapAt = r.rxGapAt := by
  unfold RefPort.judge
  cases r.st
  all_goals (dsimp only; repeat' split)
  all_goals simp [RefPort.moveTo]

/-- The evaluation of a pulse judges its port and leaves the other. -/
theorem State.completePulse_port (s : State) (p : Port) (u : OpenPulse) (o : Int) :
    (s.completePulse p u o).port p =
      ({ s.port p with lastOffset := o, edgeOffset := some o } : RefPort).judge s.params u
        (s.mismatch u.label) ∧
      (s.completePulse p u o).port p.other = s.port p.other := by
  have hraise (x : State) (b : Bool) (e : Event) (q : Port) : (x.raiseIf b e).port q = x.port q := by
    cases q <;> simp
  simp only [State.completePulse, hraise, State.movePort_ports, and_self]

/-- The evaluations at an edge use the port's open pulses up. -/
theorem State.completeOpen_port (s : State) (p : Port) :
    ((s.completeOpen p).port p).openPulses = [] ∧ (s.completeOpen p).port p.other = s.port p.other := by
  unfold State.completeOpen
  refine foldl_keeps (P := fun t : State => (t.port p).openPulses = [] ∧ t.port p.other = s.port p.other)
    (fun t u ht => ?_) _ _ (by simp)
  obtain ⟨hport, hother⟩ := t.completePulse_port p u (t.offsetOf u.at_)
  obtain ⟨hopen, -⟩ := RefPort.judge_keeps
    { t.port p with lastOffset := t.offsetOf u.at_, edgeOffset := some (t.offsetOf u.at_) } t.params u
    (t.mismatch u.label)
  exact ⟨by rw [hport, hopen]; exact ht.1, hother.trans ht.2⟩

theorem State.completeOpen_one {s : State} {p : Port} {u : OpenPulse} (h : (s.port p).openPulses = [u]) :
    s.completeOpen p =
      (s.setPort p { s.port p with openPulses := [] }).completePulse p u (s.offsetOf u.at_) := by
  rw [State.completeOpen, h]
  cases p <;> rfl

theorem State.port_congr {s t : State} (h1 : t.ref1 = s.ref1) (h2 : t.ref2 = s.ref2) (p : Port) :
    t.port p = s.port p := by
  cases p
  · exact h1
  · exact h2

/-- The ports after the pulses of a counted edge are those that the evaluations leave. -/
theorem State.pulsesAtEdge_port (s : State) (p : Port) :
    (s.pulsesAtEdge .counted).port p =
      ((((s.correctOpen .p1).correctOpen .p2).completeOpen .p1).completeOpen .p2).port p := by
  refine State.port_congr ?_ ?_ p <;> simp only [State.pulsesAtEdge, if_true] <;> split <;> simp

theorem State.completeBoth_openPulses (s : State) (p : Port) :
    (((s.completeOpen .p1).completeOpen .p2).port p).openPulses = [] := by
  obtain ⟨h1, -⟩ := s.completeOpen_port .p1
  obtain ⟨h2, hother⟩ := (s.completeOpen .p1).completeOpen_port .p2
  cases p
  · have hother : ((s.completeOpen .p1).completeOpen .p2).port .p1 = (s.completeOpen .p1).port .p1 := hother
    rw [hother, h1]
  · exact h2

/-- The check of the leap warnings changes its own flag of a port alone. -/
theorem State.leapCheck_port (s : State) (p : Port) :
    ∃ b, s.leapCheck.port p = { s.port p with leapDis := b } := by
  cases p
  · exact ⟨s.leapDisagrees .p1, by simp [State.leapCheck, State.port]⟩
  · exact ⟨s.leapDisagrees .p2, by simp [State.leapCheck, State.port]⟩

/-- After the pulses an edge leaves the ports but for the leap warnings. -/
theorem State.edgeFinished_port (s : State) (p : Port) :
    ∃ b, s.edgeFinished.port p = { s.port p with leapDis := b } := by
  unfold State.edgeFinished
  extract_lets s2
  have hmark : s2.port p = s.port p := by
    refine State.port_congr ?_ ?_ p <;> simp only [s2] <;> split <;> simp
  split
  · obtain ⟨b, hb⟩ := s2.leapCheck_port p
    have hrest : s2.composition.port p = s2.leapCheck.port p :=
      State.port_congr (by simp [State.composition]) (by simp [State.composition]) p
    exact ⟨b, hrest.trans (hb.trans (by rw [hmark]))⟩
  · exact ⟨(s.port p).leapDis, by rw [hmark]⟩

theorem State.edgeStarted_port (s : State) (p : Port) :
    (s.edgeStarted .counted).port p = ((s.beginEdge .counted).pulsesAtEdge .counted).port p :=
  State.port_congr (by simp [State.edgeStarted]) (by simp [State.edgeStarted]) p

theorem State.edgeStarted_sel (s : State) (kind : EdgeKind) :
    (s.edgeStarted kind).sel = ((s.beginEdge kind).pulsesAtEdge kind).sel := by
  simp [State.edgeStarted]

theorem State.judgeAgreement_selection (s : State) :
    s.judgeAgreement.sel.selection = s.sel.selection ∧ s.judgeAgreement.sel.mode = s.sel.mode ∧
      s.judgeAgreement.sel.manual = s.sel.manual := by
  unfold State.judgeAgreement
  repeat' split
  all_goals exact ⟨rfl, rfl, rfl⟩

/-! ## What the edge makes of one waiting pulse (R28, R29) -/

/-- The selection that the evaluations at a counted edge leave. -/
theorem State.pulsesAtEdge_selection (s : State) :
    (s.pulsesAtEdge .counted).sel.selection =
      (((s.correctOpen .p1).correctOpen .p2).portsMoved
        ((((s.correctOpen .p1).correctOpen .p2).completeOpen .p1).completeOpen .p2)).sel.selection := by
  simp only [State.pulsesAtEdge, if_true]
  split
  · rw [(State.judgeAgreement_selection _).1]
    simp
  · simp

/-- The timebase and the conditions after the pulses of an edge at which nothing slews on entry. -/
theorem State.pulsesAtEdge_idle {s : State}
    (h : ∀ p, (s.pulsesAtEdge .counted).sel.selection = some p → s.hasOpen p = true →
      s.tb.disc = .locked ∧ s.sel.selection = some p) :
    let t := ((s.correctOpen .p1).correctOpen .p2).portsMoved
      ((((s.correctOpen .p1).correctOpen .p2).completeOpen .p1).completeOpen .p2)
    (s.pulsesAtEdge .counted).tb = t.tb ∧ (s.pulsesAtEdge .counted).cond = t.cond := by
  have hidle := State.slewOnEntry_idle (s0 := (s.correctOpen .p1).correctOpen .p2)
    (s := ((s.correctOpen .p1).correctOpen .p2).portsMoved
      ((((s.correctOpen .p1).correctOpen .p2).completeOpen .p1).completeOpen .p2)) (known := s.hasOpen)
    fun p hp hk => by
      rw [← State.pulsesAtEdge_selection] at hp
      simpa using h p hp hk
  simp only [State.pulsesAtEdge, if_true, hidle]
  split <;> simp

/-- The evaluation of a pulse counts its port's exits alone. -/
theorem State.completePulse_live_of_ne (s : State) (p : Port) (u : OpenPulse) (o : Int) {i : Fin 12}
    (h : i ≠ (refDisqualify p).id) : (s.completePulse p u o).cond.live[i] = s.cond.live[i] := by
  have hraise (x : State) (b : Bool) (e : Event) : (x.raiseIf b e).cond.live = x.cond.live := by
    cases b <;> rfl
  simp only [State.completePulse, hraise, State.movePort]
  split
  · rw [State.count_live_other _ 1 h]
    simp
  · simp

theorem State.completeOpen_live_of_ne (s : State) (p : Port) {i : Fin 12} (h : i ≠ (refDisqualify p).id) :
    (s.completeOpen p).cond.live[i] = s.cond.live[i] :=
  foldl_keeps (P := fun t : State => t.cond.live[i] = s.cond.live[i])
    (fun t u ht => (t.completePulse_live_of_ne p u _ h).trans ht) _ _ (by simp)

/-- SLEW_SECONDS is counted by corrections alone. -/
theorem State.completePulse_slewSeconds (s : State) (p : Port) (u : OpenPulse) (o : Int) :
    (s.completePulse p u o).cond.live[Counter.slewSeconds.id] = s.cond.live[Counter.slewSeconds.id] :=
  s.completePulse_live_of_ne p u o (by cases p <;> decide)

theorem State.completeOpen_slewSeconds (s : State) (p : Port) :
    (s.completeOpen p).cond.live[Counter.slewSeconds.id] = s.cond.live[Counter.slewSeconds.id] :=
  s.completeOpen_live_of_ne p (by cases p <;> decide)

theorem State.portsMoved_live (s0 s : State) : (s0.portsMoved s).cond.live = s.cond.live :=
  congrArg TickPart.live (State.portsMoved_tickPart s0 s)

theorem State.beginEdge_openPulses (s : State) (kind : EdgeKind) (p : Port) :
    ((s.beginEdge kind).port p).openPulses = (s.port p).openPulses := by
  cases p <;> rfl

/-- What an edge at which nothing slews on entry leaves of the corrections. -/
theorem State.edgeBegun_idle {s e : State} (he : e = (s.waitUntil s.tb.due).beginEdge .counted)
    (h : ∀ p, s.edgeBegun.sel.selection = some p → (s.port p).openPulses ≠ [] →
      s.tb.disc = .locked ∧ s.sel.selection = some p) :
    (s.edgeBegun.tb.corr, s.edgeBegun.tb.slewing, s.edgeBegun.tb.lastCorr, s.edgeBegun.tb.lastSlew) =
      (((e.correctOpen .p1).correctOpen .p2).tb.corr, ((e.correctOpen .p1).correctOpen .p2).tb.slewing,
        ((e.correctOpen .p1).correctOpen .p2).tb.lastCorr,
        ((e.correctOpen .p1).correctOpen .p2).tb.lastSlew) ∧
      s.edgeBegun.cond.live[Counter.slewSeconds.id] =
        ((e.correctOpen .p1).correctOpen .p2).cond.live[Counter.slewSeconds.id] := by
  have hstart : s.edgeBegun = (e.pulsesAtEdge .counted).markBegun.loadLevels := by rw [he]; rfl
  have hport (p : Port) : (e.port p).openPulses = (s.port p).openPulses := by
    rw [he]
    exact (s.waitUntil s.tb.due).beginEdge_openPulses .counted p
  have hdisc : e.tb.disc = s.tb.disc := by
    rw [he]
    exact (s.tb.edge_counted_keeps _).1
  have hsel : e.sel = s.sel := by rw [he]; rfl
  have hafter : s.edgeBegun.sel = (e.pulsesAtEdge .counted).sel := by rw [hstart]; simp [State.markBegun]
  obtain ⟨htb, hcond⟩ := State.pulsesAtEdge_idle (s := e) fun p hp hk => by
    rw [hdisc, hsel]
    refine h p (by rwa [hafter]) ?_
    simpa [State.hasOpen, hport] using hk
  constructor
  · simp [hstart, State.markBegun, htb]
  · have hlive : s.edgeBegun.cond = (e.pulsesAtEdge .counted).cond := by
      rw [hstart]; simp [State.markBegun]
    rw [hlive, hcond, State.portsMoved_live, State.completeOpen_slewSeconds,
      State.completeOpen_slewSeconds]

/-- With no pulse to correct by, the second begins with no correction. -/
theorem State.edgeBegun_uncorrected {s : State}
    (h : ∀ p, s.sel.selection = some p → (s.port p).openPulses = [])
    (h' : ∀ p, s.edgeBegun.sel.selection = some p → (s.port p).openPulses = []) :
    s.edgeBegun.tb.corr = 0 ∧ s.edgeBegun.tb.slewing = false := by
  obtain ⟨hcorr, -⟩ := State.edgeBegun_idle (s := s) rfl fun p hp hopen => absurd (h' p hp) hopen
  have hidle (p : Port) : ((s.waitUntil s.tb.due).beginEdge .counted).correctOpen p =
      (s.waitUntil s.tb.due).beginEdge .counted :=
    State.correctOpen_idle fun hp => by cases p <;> exact h _ hp
  simp only [hidle, Prod.mk.injEq] at hcorr
  exact ⟨hcorr.1, hcorr.2.1⟩

/-- The edge's corrections where one pulse of one port waited. -/
theorem State.correctOpen_both {s : State} {p : Port} {u : OpenPulse} (h : (s.port p).openPulses = [u])
    (ho : (s.port p.other).openPulses = []) :
    (s.correctOpen .p1).correctOpen .p2 = s.correct p (s.offsetOf u.at_) := by
  cases p with
  | p1 =>
    rw [State.correctOpen_one h]
    have hnone : (s.port .p2).openPulses = [] := ho
    refine State.correctOpen_none ?_
    simpa [State.port] using hnone
  | p2 =>
    have hnone : (s.port .p1).openPulses = [] := ho
    rw [State.correctOpen_none hnone, State.correctOpen_one h]

/-- The edge's evaluations where one pulse of one port waited. -/
theorem State.completeOpen_both {s : State} {p : Port} {u : OpenPulse} (h : (s.port p).openPulses = [u])
    (ho : (s.port p.other).openPulses = []) : (s.completeOpen .p1).completeOpen .p2 = s.completeOpen p := by
  cases p with
  | p1 =>
    refine State.completeOpen_none ?_
    have hother : (s.completeOpen .p1).port .p2 = s.port .p2 := (s.completeOpen_port .p1).2
    rw [hother]
    exact ho
  | p2 =>
    have hnone : (s.port .p1).openPulses = [] := ho
    rw [State.completeOpen_none hnone]

theorem State.completeOpen_lastOffset {s : State} {p : Port} {u : OpenPulse}
    (h : (s.port p).openPulses = [u]) : ((s.completeOpen p).port p).lastOffset = s.offsetOf u.at_ := by
  rw [State.completeOpen_one h]
  obtain ⟨hport, -⟩ := (s.setPort p { s.port p with openPulses := [] }).completePulse_port p u
    (s.offsetOf u.at_)
  rw [hport, (RefPort.judge_keeps _ _ _ _).2.1]

/-- The one pulse that waited for the edge, of the port that steers, corrects the second it begins. -/
theorem State.edgeBegun_corrected {s : State} {p : Port} {u : OpenPulse} (hd : s.tb.disc = .locked)
    (hw : s.tb.stepWaiting = false) (hs : s.sel.selection = some p) (h : (s.port p).openPulses = [u])
    (ho : (s.port p.other).openPulses = []) :
    let o : Int := (s.edgeBegun.tb.edgeAt : Int) - (u.at_ : Int)
    s.edgeBegun.tb.corr = correctionOf s.params.slew o ∧
      s.edgeBegun.tb.slewing = decide (s.params.slew < o.natAbs) ∧
      s.edgeBegun.tb.lastCorr = correctionOf s.params.slew o ∧
      s.edgeBegun.tb.lastSlew = decide (s.params.slew < o.natAbs) ∧
      (s.edgeBegun.port p).lastOffset = o ∧
      s.edgeBegun.cond.live[Counter.slewSeconds.id] = (if s.params.slew < o.natAbs then
        min counterMax (s.cond.live[Counter.slewSeconds.id] + 1)
        else s.cond.live[Counter.slewSeconds.id]) := by
  intro o
  generalize he : (s.waitUntil s.tb.due).beginEdge .counted = e
  have hport (q : Port) : (e.port q).openPulses = (s.port q).openPulses := by
    rw [← he]
    exact (s.waitUntil s.tb.due).beginEdge_openPulses .counted q
  have hframe : e.sel = s.sel ∧ e.params = s.params ∧ e.cond = s.cond := by rw [← he]; exact ⟨rfl, rfl, rfl⟩
  obtain ⟨hsel, hparams, hcond⟩ := hframe
  have htb : e.tb = s.tb.edge .counted (max s.now s.tb.due) := by rw [← he]; rfl
  obtain ⟨hdisc, -, -, -, -, hstep, -, -⟩ := s.tb.edge_counted_keeps (max s.now s.tb.due)
  obtain ⟨hat, -, hcorr0, hslew0⟩ := s.tb.edge_begun .counted (max s.now s.tb.due)
  have hoff : e.offsetOf u.at_ = o := by
    simp only [State.offsetOf, o, htb, State.edgeBegun_eq, State.edgeStarted_tb, State.waitUntil]
  have hone : (e.port p).openPulses = [u] := (hport p).trans h
  have hnone : (e.port p.other).openPulses = [] := (hport p.other).trans ho
  have hboth := State.correctOpen_both hone hnone
  rw [hoff] at hboth
  have hsteer := State.correct_steering (s := e) (p := p) o (by rw [htb, hdisc, hd]) (by rw [hsel, hs])
    (by rw [htb, hstep, hw])
  obtain ⟨hfields, hlive⟩ := State.edgeBegun_idle (s := s) he.symm fun q _ hq => by
    obtain rfl | rfl := Port.eq_or_other p q
    · exact ⟨hd, hs⟩
    · exact absurd ho hq
  rw [hboth] at hfields hlive
  have hlast : (s.edgeBegun.port p).lastOffset = o := by
    have hstart : s.edgeBegun.port p = (e.pulsesAtEdge .counted).port p := by
      rw [← he]
      exact State.edgeStarted_port _ p
    rw [hstart, State.pulsesAtEdge_port, hboth]
    have hports (q : Port) : (e.correct p o).port q = e.port q := State.port_congr (by simp) (by simp) q
    rw [State.completeOpen_both ((congrArg _ (hports p)).trans hone)
      ((congrArg _ (hports p.other)).trans hnone),
      State.completeOpen_lastOffset ((congrArg _ (hports p)).trans hone), ← hoff]
    simp [State.offsetOf]
  simp only [hsteer, htb, hcorr0, hslew0, hparams, zero_add, Bool.false_or, Prod.mk.injEq] at hfields
  obtain ⟨hc, hsl, hlc, hls⟩ := hfields
  refine ⟨hc, hsl, hlc, hls, hlast, ?_⟩
  rw [hlive, hsteer, ← hcond, ← hparams]
  by_cases hlim : e.params.slew < o.natAbs
  · rw [if_pos hlim, ← e.count_live]
    simp [hlim, htb, hslew0]
  · simp [hlim]

end Sys2Proof.Machine

namespace Sys2Proof

open Sys2Proof.Machine

/-- Settles O19: the second that ends was learnt from, and the edge keeps what it learnt. -/
theorem learningWindowMovesTheTrim : Obligations.LearningWindowMovesTheTrim := by
  intro s hp hw hd hb h1 h2 ht hs
  have hset := Timebase.edge_timeSet ht .counted (max s.now s.tb.due)
  have hstart := State.edgeStarted_none_tb (s := s.waitUntil s.tb.due) h1 h2 hset hd hs
  obtain ⟨-, htrim, hvalid, hcount, hsum, -, -, -⟩ := s.tb.edge_counted_keeps (max s.now s.tb.due)
  have hwin : (s.edgeBegun.edgeFinished.settle.tb.winCount, s.edgeBegun.edgeFinished.settle.tb.winSum,
      s.edgeBegun.edgeFinished.settle.tb.trim, s.edgeBegun.edgeFinished.settle.tb.trimValid) =
      (s.tb.learn.winCount, s.tb.learn.winSum, s.tb.learn.trim, s.tb.learn.trimValid) := by
    rw [← htrim, ← hvalid, ← hcount, ← hsum]
    simp only [State.settle_frame, State.edgeFinished_tb, State.edgeBegun_eq, hstart]
    rfl
  simp only [Prod.mk.injEq] at hwin
  obtain ⟨wcount, wsum, wtrim, wvalid⟩ := hwin
  refine ⟨_, State.exec_secondEdge hp hw, fun hslew => ?_, fun hslew hlt => ?_, fun hslew heq => ?_⟩
  · rw [wcount, wsum, wtrim, wvalid, Timebase.learn_slewing hb hd hslew]
    rfl
  · rw [wcount, wsum, wtrim, wvalid, Timebase.learn_enters hb hd hslew hlt]
  · rw [wcount, wsum, wtrim, wvalid, Timebase.learn_hundredth hb hd hslew heq]
    refine ⟨rfl, ?_⟩
    rw [Int.add_assoc]
    rfl

/-- Settles O18: an edge with no pulse begins no correction, one pulse is corrected in its second, and
the trim shares are the differences of a floor. -/
theorem secondLengthSpreadsTheTrim : Obligations.SecondLengthSpreadsTheTrim := by
  refine ⟨fun s hp hw => ?_, fun T => ⟨?_, fun k _ => trimShare_floor T k,
    fun k _ h h' => trimShare_bounds T k h h'⟩⟩
  · obtain ⟨-, -, -, -, -, -, -, -, hk, hat, hmade, -⟩ := s.secondEdge_tb
    obtain ⟨hnow, -⟩ := s.secondEdge_frame
    obtain ⟨-, -, -, -, -, -, hpos, -⟩ := s.tb.edge_counted_keeps (max s.now s.tb.due)
    have hopen (p : Port) : (s.edgeBegun.edgeFinished.settle.port p).openPulses = [] := by
      obtain ⟨b, hb⟩ := s.edgeBegun.edgeFinished_port p
      have hsettle : s.edgeBegun.edgeFinished.settle.port p = s.edgeBegun.edgeFinished.port p := by
        cases p <;> rfl
      rw [hsettle, hb]
      dsimp only
      rw [State.edgeBegun_eq, State.edgeStarted_port, State.pulsesAtEdge_port, State.completeBoth_openPulses]
    have hlast (p : Port) : (s.edgeBegun.edgeFinished.settle.port p).lastOffset =
        (s.edgeBegun.port p).lastOffset := by
      obtain ⟨b, hb⟩ := s.edgeBegun.edgeFinished_port p
      have hsettle : s.edgeBegun.edgeFinished.settle.port p = s.edgeBegun.edgeFinished.port p := by
        cases p <;> rfl
      rw [hsettle, hb]
    refine ⟨_, State.exec_secondEdge hp hw, by rw [hat]; rfl, by rw [hnow, hat]; rfl, hk.trans hpos,
      by rw [hmade]; rfl, ?_, fun h1 h2 => ?_, fun hsel h => ?_, ?_, fun p u hd hs h ho => ?_⟩
    · simpa using s.edgeBegun_length
    · simpa using State.edgeBegun_uncorrected (s := s) (fun p _ => by cases p <;> assumption)
        (fun p _ => by cases p <;> assumption)
    · simpa using State.edgeBegun_uncorrected h fun p hp => h p (by rw [← hsel]; simpa using hp)
    · exact Prod.ext (hopen .p1) (hopen .p2)
    · obtain ⟨hc, hsl, hlc, hls, hoff, hlive⟩ := State.edgeBegun_corrected hd hw hs h ho
      refine ⟨?_, ?_, ?_, ?_, ?_⟩
      · rw [hlast, hoff]; simp
      · simpa [correctionOf, limit] using hc
      · simp [hsl]
      · simp [hsl, hls, hlc, correctionOf, limit]
      · have hend : s.edgeBegun.edgeFinished.settle.tb.edgeAt = s.edgeBegun.tb.edgeAt := by simp
        rw [hend]
        exact hlive
  · rw [trimShare_sum]
    omega

end Sys2Proof

/-! What the two latched views hold of an event (R189, R190), and the synthesizer's events (R142..R145). -/

namespace Sys2Proof.Machine

/-! ## The views of one item -/

/-- Item `i` in the two latched views. -/
def State.views (s : State) (i : Nat) : Bool × Bool := (s.cond.viewA.getLsbD i, s.cond.viewB.getLsbD i)

theorem State.views_congr {s t : State} (h : t.cond = s.cond) (i : Nat) : t.views i = s.views i := by
  simp only [State.views, h]

theorem State.views_of_raised {s : State} {i : Nat} (h : s.views i = (true, true)) :
    s.cond.viewA.getLsbD i = true ∧ s.cond.viewB.getLsbD i = true := Prod.mk.inj h

/-- The end of an event adds conditions alone, which are items 0 to 12. -/
theorem State.settle_views (s : State) {i : Nat} (h : 13 ≤ i) : s.settle.views i = s.views i := by
  have hnone : s.activeNow.getLsbD i = false := BitVec.getLsbD_of_ge _ _ h
  simp [State.views, State.settle, Conditions.addToViews, hnone]

theorem State.raise_views_self (s : State) (e : Event) : (s.raise e).views e.item = (true, true) := by
  cases e <;> simp [State.views, State.raise, Conditions.addToViews, Event.item]

theorem State.raise_views_other (s : State) (e : Event) {i : Nat} (h : i ≠ e.item) :
    (s.raise e).views i = s.views i := by
  simp [State.views, State.raise, Conditions.addToViews, BitVec.getLsbD_twoPow, h.symm]

theorem State.raiseIf_views_self (s : State) (b : Bool) (e : Event) :
    (s.raiseIf b e).views e.item = if b then (true, true) else s.views e.item := by
  cases b with
  | true => exact s.raise_views_self e
  | false => rfl

theorem State.raiseIf_views_other (s : State) (b : Bool) (e : Event) {i : Nat} (h : i ≠ e.item) :
    (s.raiseIf b e).views i = s.views i := by
  cases b with
  | true => exact s.raise_views_other e h
  | false => rfl

/-- Counting leaves the views. -/
theorem State.count_views (s : State) (c : Counter) (n i : Nat) : (s.count c n).views i = s.views i := rfl

/-! ## The synthesizer's lock (R140..R145) -/

theorem State.setSynth_views (s : State) (y : Synth) : (s.setSynth y).views 16 =
    if (decide (s.synth.st = .locked) != decide (y.st = .locked)) then (true, true) else s.views 16 :=
  State.raiseIf_views_self _ _ .synthLockChange

/-- The end of an event that changed the synthesizer: item 16 stands by the lock. -/
theorem State.setSynth_settle_views (s : State) (y : Synth) : (s.setSynth y).settle.views 16 =
    if (decide (s.synth.st = .locked) != decide (y.st = .locked)) then (true, true) else s.views 16 := by
  rw [State.settle_views _ (by decide), State.setSynth_views]

theorem State.settle_synthUnlocked (s : State) :
    s.settle.cond.active.getLsbD 7 = decide (s.synth.st = .acquiring) := by
  rw [State.settle_active, State.activeNow_getLsbD]
  rfl

/-! ## A source change (R19, R20, R21, R145) -/

theorem State.sourceChange_tb (s : State) (src : Source) :
    (s.sourceChange src).tb = s.tb.sourceChange src := by
  simp [State.sourceChange]

theorem Timebase.sourceChange_source (t : Timebase) (src : Source) : (t.sourceChange src).source = src := by
  unfold Timebase.sourceChange
  cases t.disc <;> rfl

theorem State.sourceChange_synth (s : State) (src : Source) : (s.sourceChange src).synth =
    if s.synth.st = .off then s.synth else s.synth.acquire s.now := by
  unfold State.sourceChange State.synthSourceChange
  split
  · rfl
  · exact State.setSynth_synth _ _

/-- A source change takes the lock away. -/
theorem State.sourceChange_views (s : State) (src : Source) : (s.sourceChange src).views 16 =
    if s.synth.st = .locked then (true, true) else s.views 16 := by
  unfold State.sourceChange State.synthSourceChange
  split
  case isTrue h =>
    have hoff : s.synth.st = .off := h
    rw [if_neg (by simp [hoff])]
    rfl
  case isFalse h =>
    rw [State.setSynth_views]
    cases hst : s.synth.st <;> simp [Synth.acquire] <;> rfl

theorem State.sourceChange_active (s : State) (src : Source) :
    (s.sourceChange src).activeNow.getLsbD 1 = false ∧
      (s.sourceChange src).activeNow.getLsbD 2 = decide (s.tb.disc ≠ .locked ∧ s.tb.timeSet = true) ∧
      (s.sourceChange src).activeNow.getLsbD 6 = decide (src = .standby) ∧
      (s.sourceChange src).activeNow.getLsbD 7 = decide (s.synth.st ≠ .off) := by
  simp only [State.activeNow_getLsbD, State.causes, List.getD_cons_succ, List.getD_cons_zero,
    State.sourceChange_tb, State.sourceChange_synth]
  cases hd : s.tb.disc <;> cases hst : s.synth.st <;>
    simp [Timebase.sourceChange, Timebase.emptyWindow, Synth.acquire, hd, hst]

/-! ## The judgement of a comparison period (R142, R143, R144) -/

theorem Synth.judged_keeps (y : Synth) (within : Bool) :
    (y.judged within).last = y.last ∧ (y.judged within).periodAt = y.periodAt ∧
      ((y.judged within).n, (y.judged within).k, (y.judged within).p, (y.judged within).b) =
        (y.n, y.k, y.p, y.b) := by
  unfold Synth.judged
  repeat' split
  all_goals exact ⟨rfl, rfl, rfl⟩

theorem Synth.judged_acquiring_within {y : Synth} (h : y.st = .acquiring) : y.judged true =
    if 255 ≤ y.inRun then { y with st := .locked, inRun := 0, outRun := 0 }
    else { y with inRun := y.inRun + 1 } := by
  unfold Synth.judged
  rw [h]
  dsimp only
  split
  · rw [if_pos (by omega)]
  · rw [if_neg (by omega)]

theorem Synth.judged_acquiring_outside {y : Synth} (h : y.st = .acquiring) :
    y.judged false = { y with inRun := 0 } := by
  unfold Synth.judged
  rw [h]

theorem Synth.judged_locked_within {y : Synth} (h : y.st = .locked) :
    y.judged true = { y with outRun := 0 } := by
  unfold Synth.judged
  rw [h]

theorem Synth.judged_locked_outside {y : Synth} (h : y.st = .locked) : y.judged false =
    if 3 ≤ y.outRun then { y with st := .acquiring, outRun := 0, inRun := 0 }
    else { y with outRun := y.outRun + 1 } := by
  unfold Synth.judged
  rw [h]
  dsimp only
  split
  · rw [if_pos (by omega)]
  · rw [if_neg (by omega)]

theorem phaseJudgement_within (num den : Nat) :
    decide (phaseJudgement num den = .within) = decide (16 * num ≤ den) := by
  unfold phaseJudgement
  split <;> simp_all

/-- The synthesizer whose period ends, with the judgement, before the judgement acts. -/
def State.periodOver (s : State) (num den : Nat) : Synth :=
  { s.synth with last := phaseJudgement num den, periodAt := max s.now (s.synth.periodAt + s.synth.k) }

theorem State.exec_comparisonPeriodEnd {s : State} (hp : s.por = false) (h : s.synth.st ≠ .off)
    (num den : Nat) : exec (.comparisonPeriodEnd num den) s =
      .next (((s.waitUntil (s.synth.periodAt + s.synth.k)).setSynth
        ((s.periodOver num den).judged (decide (16 * num ≤ den)))).settle) := by
  rw [← phaseJudgement_within]
  simp only [exec, execComparisonPeriodEnd, hp, h, State.periodEnd]
  rfl

end Sys2Proof.Machine

namespace Sys2Proof

open Sys2Proof.Machine

/-- Settles O21: both commands make the same source change, of a state that differs in time alone. -/
theorem sourceChangeClearsTheTrim : Obligations.SourceChangeClearsTheTrim := by
  unfold Obligations.SourceChangeClearsTheTrim
  intro moved
  have hmoved (src : Source) (s x : State) (htb : x.tb = s.tb) (hsynth : x.synth = s.synth)
      (hcond : x.cond = s.cond) : moved src s (x.sourceChange src).settle := by
    obtain ⟨h1, h2, -, h7⟩ := x.sourceChange_active src
    have hviews : (x.sourceChange src).settle.views 16 =
        if s.synth.st = .locked then (true, true) else s.views 16 := by
      rw [State.settle_views _ (by decide), State.sourceChange_views, hsynth, State.views_congr hcond]
    refine ⟨?_, ?_, fun hl => ?_, fun hl => ?_, ?_⟩
    · have hend : (x.sourceChange src).settle.tb = s.tb.sourceChange src := by
        rw [← htb, ← State.sourceChange_tb]
        rfl
      rw [hend]
      cases hd : s.tb.disc <;> simp [Timebase.sourceChange, hd, Timebase.emptyWindow]
    · simp [State.sourceChange_synth, hsynth, Synth.acquire]
    · rw [if_pos hl] at hviews
      exact State.views_of_raised hviews
    · rw [if_neg hl] at hviews
      exact Prod.mk.inj hviews
    · rw [State.settle_active, h1, h2, h7, htb, hsynth]
  have hframe (src : Source) (x : State) : (x.sourceChange src).settle = { x with
      tb := (x.sourceChange src).settle.tb, synth := (x.sourceChange src).settle.synth
      cond := (x.sourceChange src).settle.cond } := by
    apply State.ext <;> simp
  refine ⟨fun n dt s hp hs => ?_, fun n dt s hp hs => ?_, fun s hp hs => ?_⟩
  · have hx : exec (.freqInAbsent n dt) s = .next
        ((State.sourceChange { s.wait dt with freqFrom := s.now + dt + n } .standby).settle) := by
      simp [exec, execFreqInAbsent, State.wait, hp, hs]
    refine ⟨_, hx, hmoved .standby s _ rfl rfl rfl, ?_, ?_, ?_, ?_⟩
    · simp [State.wait]
    · simp [State.sourceChange, State.wait]
    · rw [State.settle_active, (State.sourceChange_active _ .standby).2.2.1]
      rfl
    · conv_lhs => rw [hframe]
      simp [State.sourceChange, State.wait]
  · simp [exec, execFreqInAbsent, State.wait, hp, hs]
  · have hx : exec .freqInReturn s = .next
        (((s.waitUntil (s.freqFrom + 100000000)).sourceChange .station).settle) := by
      simp [exec, execFreqInReturn, hp, hs]
    refine ⟨_, hx, hmoved .station s _ rfl rfl rfl, ?_, ?_, ?_, ?_⟩
    · simp [State.presence, State.sourceChange_tb, Timebase.sourceChange_source]
    · simp [State.waitUntil]
    · rw [State.settle_active, (State.sourceChange_active _ .station).2.2.1]
      rfl
    · conv_lhs => rw [hframe]
      simp [State.sourceChange, State.waitUntil]

/-- Settles O33: by the state of the loop and the judgement. -/
theorem comparisonPeriodIsJudged : Obligations.ComparisonPeriodIsJudged := by
  intro num den s hp within
  refine ⟨fun hoff => by simp [exec, execComparisonPeriodEnd, hp, hoff], fun hon => ?_⟩
  have hx := State.exec_comparisonPeriodEnd hp hon num den
  obtain ⟨hlast, hat, hset⟩ := (s.periodOver num den).judged_keeps within
  change exec _ s = .next ((State.setSynth _ ((s.periodOver num den).judged within)).settle) at hx
  generalize hy : (s.periodOver num den).judged within = y at hx hlast hat hset
  generalize hu : (s.waitUntil (s.synth.periodAt + s.synth.k)).setSynth y = u at hx
  have hsynth : u.settle.synth = y := by simp [← hu]
  have hviews : u.settle.views 16 =
      if (decide (s.synth.st = .locked) != decide (y.st = .locked)) then (true, true) else s.views 16 := by
    rw [← hu]
    exact State.setSynth_settle_views _ y
  have hactive : u.settle.cond.active.getLsbD 7 = decide (y.st = .acquiring) := by
    rw [u.settle_synthUnlocked, ← hsynth]
    rfl
  refine ⟨_, hx, by simp [← hu, State.waitUntil], ?_, ?_, ?_, fun h hw hr => ?_, fun h hw hr => ?_,
    fun h hw => ?_, fun h hw => ?_, fun h hw hr => ?_, fun h hw hr => ?_, ?_⟩
  · rw [hsynth, hat]
    simp [State.periodOver, ← hu, State.waitUntil]
  · rw [hsynth, hlast]
    simp [State.periodOver, phaseJudgement, within]
  · rw [hsynth, hset]
    rfl
  · rw [hw, Synth.judged_acquiring_within (y := s.periodOver num den) h,
      if_neg (by simp only [State.periodOver]; omega)] at hy
    rw [hsynth, ← hy]
    exact ⟨h, rfl⟩
  · rw [hw, Synth.judged_acquiring_within (y := s.periodOver num den) h,
      if_pos (by simpa only [State.periodOver] using hr)] at hy
    rw [hsynth]
    obtain ⟨ha, hb⟩ := State.views_of_raised (hviews.trans (if_pos (by simp [← hy, h])))
    exact ⟨by rw [← hy], by rw [← hy], ha, hb, by rw [hactive, ← hy]; rfl⟩
  · rw [hw, Synth.judged_acquiring_outside (y := s.periodOver num den) h] at hy
    rw [hsynth, ← hy]
    exact ⟨h, rfl⟩
  · rw [hw, Synth.judged_locked_within (y := s.periodOver num den) h] at hy
    rw [hsynth, ← hy]
    exact ⟨h, rfl⟩
  · rw [hw, Synth.judged_locked_outside (y := s.periodOver num den) h,
      if_neg (by simp only [State.periodOver]; omega)] at hy
    rw [hsynth, ← hy]
    exact ⟨h, rfl⟩
  · rw [hw, Synth.judged_locked_outside (y := s.periodOver num den) h,
      if_pos (by simpa only [State.periodOver] using hr)] at hy
    rw [hsynth]
    obtain ⟨ha, hb⟩ := State.views_of_raised (hviews.trans (if_pos (by simp [← hy, h])))
    exact ⟨by rw [← hy], by rw [← hy], ha, hb, by rw [hactive, ← hy]; rfl⟩
  · apply State.ext <;> simp [← hu, State.waitUntil]

end Sys2Proof

/-! What the reading requests carry (R40, R60, R67, R83, R84, R109, R132, R148, R163, R180, R185). -/

namespace Sys2Proof.Machine

/-- A request that reads answers with data of the state and leaves it. -/
theorem State.answers_reading {s : State} {c : Instr} {l : Link} {q : Request} {act : State → Acted}
    {r : Result} {data : List Octet} (ht : s.takesUp c = true) (hc : c.asRequest = some (l, q))
    (hx : ∀ s, exec c s = .next (s.request l q act))
    (ha : act { s with exe := s.exe.serve l } = .answered r data { s with exe := s.exe.serve l }) :
    s.Answers c r data id :=
  State.answers_of ht hc hx ha

/-! ## The data of each request, as the manual lists them -/

theorem State.timeReport_eq (s : State) : s.timeReport =
    let t := s.tb
    let day := if t.timeSet then t.day else 0
    let sec := if t.timeSet then t.sec else 0
    encFlag t.timeSet ++ octetsBE 2 day ++ octetsBE 3 sec ++
      octetsBE 1 (secondOfMinute sec) ++ octetsBE 1 t.minLen ++
      encOption (fun h : Handed => octetsBE 1 h.length ++ octetsBE 4 h.minute) t.handed ++
      octetsBE 1 t.freeSec ++ octetsBE 2 t.freeMin ++ encDiscipline t.disc ++
      octetsBE 2 t.holdAge ++ octetsBE 1 t.quality ++ encSource t.source ++ octetsBE 4 s.presence ++
      signedBE 2 t.trim ++ encFlag t.trimValid ++ octetsBE 1 t.k ++ octetsBE 1 t.winCount ++
      signedBE 3 t.winSum ++ signedBE 2 t.lastCorr ++ encFlag t.lastSlew ++ encFlag t.stepWaiting ++
      encOption (fun x : Nat × Nat => octetsBE 2 x.1 ++ octetsBE 3 x.2) t.pendingStep := by
  unfold State.timeReport encDaySecond
  simp only [List.append_assoc]

theorem State.referencesReport_eq (s : State) : s.referencesReport =
    let a := s.ref1
    let b := s.ref2
    let label := fun x : Label => octetsBE 2 x.day ++ octetsBE 3 x.sec ++ encLeap x.leap
    encSelectMode s.sel.mode ++ encRefChoice s.sel.selection ++ encRefChoice s.sel.manual ++
      encFlag a.enable ++ encPortState a.st ++ encFlag b.enable ++ encPortState b.st ++
      octetsBE 1 a.goodRun ++ octetsBE 1 a.irregRun ++ octetsBE 1 a.unlabRun ++ octetsBE 1 a.missed ++
      octetsBE 1 b.goodRun ++ octetsBE 1 b.irregRun ++ octetsBE 1 b.unlabRun ++ octetsBE 1 b.missed ++
      encOption label a.last ++ encOption label b.last ++
      encFlag a.waiting.isSome ++ encFlag b.waiting.isSome ++
      signedBE 4 a.lastOffset ++ signedBE 4 b.lastOffset ++ encFlag a.leapDis ++ encFlag b.leapDis ++
      encOption (octetsBE 3) s.sel.diff ++ encFlag s.sel.disagree := by
  unfold State.referencesReport encLabel encDaySecond
  simp only [List.append_assoc]

theorem LastFrame.encode_eq (f : LastFrame) : f.encode =
    encFlag f.reason.isSome ++ encOption encReason f.reason ++
      octetsBE 2 (f.syms.length + f.excess) ++ encSymbols 4 f.syms ++ octetsBE 1 f.excess ++
      octetsBE 2 f.start.day ++ octetsBE 3 f.start.sec ++
      encOption (fun x : Nat × Nat => octetsBE 2 x.1 ++ octetsBE 2 x.2) f.matched ++
      octetsBE 1 f.differing ++ encFlag f.injected := by
  have hverdict : (!f.matchedVerdict) = f.reason.isSome := by
    cases h : f.reason <;> simp [LastFrame.matchedVerdict, h]
  unfold LastFrame.encode encDaySecond encDayMinute
  simp only [hverdict, List.append_assoc]

theorem State.monitorSummary_eq (s : State) : s.monitorSummary =
    let m := s.mon
    octetsBE 2 s.params.monitorEnable.toNat ++ encDetector m.det ++
      encOption (fun x : Symbol => octetsBE 1 x.code) m.lastSymbol ++ octetsBE 2 m.lastDelay ++
      encFlag m.coll.isSome ++
      (match m.coll with
        | none => [0, 0]
        | some x => octetsBE 1 x.syms.length ++ octetsBE 1 x.excess) ++
      encOption (fun t => octetsBE 4 (t - s.now)) m.timer ++
      encFlag m.frameLost ++ octetsBE 1 m.bad ++ octetsBE 1 m.good ++
      octetsBE 2 s.params.lofSet ++ octetsBE 2 s.params.lofClear ++ encFlag m.inject ++
      encAnalyzer m.an ++ octetsBE 1 m.hunt.length ++ octetsBE 1 m.correct ++ octetsBE 1 m.miss ++
      octetsBE 2 m.gen.toNat ++
      encFlag (decide (s.key.mode = .testPattern ∧ s.params.monitorEnable = true ∧ m.an ≠ .inSync)) := by
  have hunsync : s.patternUnsync =
      decide (s.key.mode = .testPattern ∧ s.params.monitorEnable = true ∧ s.mon.an ≠ .inSync) := by
    simp [State.patternUnsync, Bool.and_assoc]
  have hcoll : octetsBE 1 ((s.mon.coll.map (·.syms.length)).getD 0) ++
      octetsBE 1 ((s.mon.coll.map (·.excess)).getD 0) = match s.mon.coll with
        | none => [0, 0]
        | some x => octetsBE 1 x.syms.length ++ octetsBE 1 x.excess := by
    cases s.mon.coll <;> rfl
  unfold State.monitorSummary encParam encSymbol
  simp only [hunsync, ← hcoll, List.append_assoc]

theorem Bus.scanning_eq (b : Bus) : b.scanning = match b.txn with
    | some x => x.scan
    | none => false := by
  unfold Bus.scanning
  cases b.txn <;> rfl

theorem State.busSummary_eq (s : State) : s.busSummary =
    let count := fun st : ModuleState => octetsBE 1 (s.bus.table.toList.countP (·.st = st))
    let entry := fun x : RelayEntry => encLink x.link ++ encFlag x.value.isSome ++
      octetsBE 1 x.address ++ octetsBE 1 x.register ++ encFlag x.underWay ++ encFlag x.wanted
    octetsBE 1 s.bus.first ++ octetsBE 1 s.bus.last ++ octetsBE 2 s.params.scanEnable.toNat ++
      octetsBE 2 s.params.minModules ++ octetsBE 1 s.bus.pos ++ octetsBE 1 s.bus.contributing ++
      encFlag s.bus.alarm ++ count .unknown ++ count .ok ++ count .warning ++ count .fault ++
      count .silent ++ encFlag s.bus.txn.isSome ++
      encFlag (match s.bus.txn with
        | some x => x.scan
        | none => false) ++
      encFlag (decide (s.bus.queue ≠ [])) ++ octetsBE 1 s.bus.queue.length ++
      s.bus.queue.flatMap entry := by
  have hwaiting : (!s.bus.queue.isEmpty) = decide (s.bus.queue ≠ []) := by
    cases s.bus.queue <;> rfl
  unfold State.busSummary encParam Bus.inState encList RelayEntry.encode
  simp only [Bus.scanning_eq, hwaiting, List.append_assoc]

theorem State.keyerSummary_eq (s : State) : s.keyerSummary =
    let k := s.key
    encMode k.mode ++ encOption encMode k.pendingMode ++
      encOption (fun x : OffReq => encFlag x.until_.isSome ++
        encOption (fun e : Nat × Nat => octetsBE 2 e.1 ++ octetsBE 2 e.2) x.until_ ++
        encFlag x.deferred) k.offReq ++
      encOption (fun x : Maint => octetsBE 2 x.endDay ++ octetsBE 2 x.endMinute ++
        encMode x.resume ++ encFlag x.due) k.maint ++
      encFlag k.windowReport ++ encFlag k.hold ++ octetsBE 2 k.full ++ octetsBE 2 k.reduced ++
      encFlag s.txReady ++ octetsBE 1 s.bus.contributing ++ octetsBE 2 s.params.minModules ++
      encFlag s.transmitterReady ++ octetsBE 2 k.gen.toNat ++ octetsBE 1 k.history.length ++
      encOption (fun f : Keyed => octetsBE 2 f.record.day ++ octetsBE 2 f.record.minute) k.current :=
  rfl

theorem Keyed.encode_eq (f : Keyed) : f.encode =
    let r := f.record
    octetsBE 2 r.day ++ octetsBE 2 r.minute ++ octetsBE 2 r.civDay ++ octetsBE 2 r.civMinute ++
      octetsBE 1 r.length ++ signedBE 1 r.octIdx ++ encFlag r.low ++ encLeap r.leap ++
      encFlag r.zoneAnn ++ octetsBE 1 r.zone ++ octetsBE 1 r.nextZone ++ octetsBE 1 r.quality ++
      octetsBE 1 r.crc.toNat ++ octetsBE 1 r.announcing.length ++
      r.announcing.flatMap (octetsBE 1) ++ encSymbols 2 r.syms ++
      octetsBE 2 f.edgeDay ++ octetsBE 3 f.edgeSec := by
  simp only [Keyed.encode, encDayMinute, encDaySecond, encList, List.append_assoc]

/-- The four offsets of the zone table, in order of index. -/
theorem flatMap_offsets (v : Vector Int 4) :
    v.toList.flatMap (signedBE 1) = signedBE 1 v[0] ++ signedBE 1 v[1] ++ signedBE 1 v[2] ++
      signedBE 1 v[3] := by
  obtain ⟨⟨xs⟩, hxs⟩ := v
  match xs, hxs with
  | [a, b, c, d], _ => simp [List.flatMap]

theorem Schedule.summary_eq (y : Schedule) : y.summary =
    octetsBE 1 y.entries.length ++ octetsBE 1 y.nextNum ++ octetsBE 2 y.version ++
      encFlag (y.entries.any (·.announcing)) ++ octetsBE 1 y.zone ++
      encOption (octetsBE 1) y.pendingZone ++ signedBE 1 y.offsets[0] ++ signedBE 1 y.offsets[1] ++
      signedBE 1 y.offsets[2] ++ signedBE 1 y.offsets[3] := by
  simp only [Schedule.summary, flatMap_offsets, List.append_assoc]
  rfl

theorem Entry.encode_eq (x : Entry) : x.encode =
    octetsBE 1 x.number ++ encKind x.kind ++ octetsBE 2 x.eDay ++ octetsBE 2 x.eMinute ++
      encOption (octetsBE 1) x.newZone ++ octetsBE 2 x.lead ++ encLink x.origin ++
      octetsBE 2 x.postedDay ++ octetsBE 3 x.postedSec ++ encFlag x.announcing ++
      encOption encFlag x.altered := by
  simp only [Entry.encode, encDayMinute, encDaySecond, List.append_assoc]

theorem Retired.encode_eq (x : Retired) : x.encode =
    octetsBE 1 x.number ++ encKind x.kind ++ octetsBE 2 x.eDay ++ octetsBE 2 x.eMinute ++
      encOption (octetsBE 1) x.newZone ++ encLink x.origin ++ encOutcome x.outcome ++
      encOption encLink x.withdrawnBy ++ octetsBE 2 x.atDay ++ octetsBE 3 x.atSec := by
  simp only [Retired.encode, encDayMinute, encDaySecond, List.append_assoc]

theorem Composer.report_eq (c : Composer) (x : Slot) : c.report x =
    encString (c.text x) ++ (encSlot c.active ++ encOption encSlot c.pendingSlot ++
      signedBE 1 c.octIdx ++ encFlag c.low ++
      encOption (fun r : FrameRecord =>
        octetsBE 2 r.day ++ octetsBE 2 r.minute ++ octetsBE 1 r.length ++ encLeap r.leap) c.next) := by
  unfold Composer.report encDayMinute
  simp only [List.append_assoc]

/-! ## The parts of a reading -/

theorem octet_ne_zero {o : Octet} (h : 1 ≤ o.toNat) : o ≠ 0 := by
  rintro rfl
  exact absurd h (by decide)

theorem actReadMonitor_summary (s : State) : actReadMonitor 0 s = .answered .ok s.monitorSummary s := rfl

theorem actReadMonitor_lastFrame (s : State) :
    actReadMonitor 1 s = .answered .ok (encOption LastFrame.encode s.mon.lastFrame) s := rfl

theorem actReadMonitor_badArgument {part : Octet} {s : State} (h : 1 < part.toNat) :
    actReadMonitor part s = .plain .badArgument s := by
  obtain ⟨n, hn⟩ : ∃ n, part.toNat = n + 2 := ⟨part.toNat - 2, by omega⟩
  rw [actReadMonitor, hn]
  rfl

theorem actReadNotice_text0 (s : State) : actReadNotice 0 s = .answered .ok (s.comp.report .s0) s := rfl

theorem actReadNotice_text1 (s : State) : actReadNotice 1 s = .answered .ok (s.comp.report .s1) s := rfl

theorem actReadNotice_badArgument {part : Octet} {s : State} (h : 2 < part.toNat) :
    actReadNotice part s = .plain .badArgument s := by
  obtain ⟨n, hn⟩ : ∃ n, part.toNat = n + 3 := ⟨part.toNat - 3, by omega⟩
  rw [actReadNotice, hn]
  rfl

end Sys2Proof.Machine

namespace Sys2Proof

open Sys2Proof.Machine

/-- Settles O58: each reading request answers its report, by the record or the part that it names. -/
theorem readingChangesNothing : Obligations.ReadingChangesNothing := by
  refine ⟨fun l tag s ht => ?time, fun l tag s ht => ?synth, fun l tag s ht => ?references,
    fun l tag part s ht => ?monitor, fun l tag part s ht => ?notice, fun l tag part s ht => ?modules,
    fun l tag part s ht => ?keyer, fun l tag part s ht => ?schedule, fun l tag part s ht => ?retired⟩
  case time =>
    refine State.answers_reading ht rfl (fun _ => rfl) ?_
    rw [actReadTime, State.timeReport_eq]
    rfl
  case synth => exact State.answers_reading ht rfl (fun _ => rfl) rfl
  case references =>
    refine State.answers_reading ht rfl (fun _ => rfl) ?_
    rw [actReadReferences, State.referencesReport_eq]
  case monitor =>
    refine ⟨fun h => ?_, fun h hf => ?_, fun f h hf => ?_, fun h => ?_⟩
    · refine State.answers_reading ht rfl (fun _ => rfl) ?_
      rw [h, actReadMonitor_summary, State.monitorSummary_eq] <;> rfl
    · refine State.answers_reading ht rfl (fun _ => rfl) ?_
      rw [h, actReadMonitor_lastFrame]
      simp only [hf, encOption]
    · refine State.answers_reading ht rfl (fun _ => rfl) ?_
      rw [h, actReadMonitor_lastFrame]
      simp only [hf, encOption, LastFrame.encode_eq, List.cons_append]
    · exact State.answers_reading ht rfl (fun _ => rfl) (actReadMonitor_badArgument h)
  case notice =>
    refine ⟨fun h => ?_, fun h => ?_, fun h => ?_, fun h => ?_⟩
    · refine State.answers_reading ht rfl (fun _ => rfl) ?_
      rw [h, actReadNotice_text0, Composer.report_eq]
      rfl
    · refine State.answers_reading ht rfl (fun _ => rfl) ?_
      rw [h, actReadNotice_text1, Composer.report_eq]
      rfl
    · refine State.answers_reading ht rfl (fun _ => rfl) ?_
      rw [h]
      rfl
    · exact State.answers_reading ht rfl (fun _ => rfl) (actReadNotice_badArgument h)
  case modules =>
    refine ⟨fun h => ?_, fun h h' => ?_, fun h => ?_⟩
    · refine State.answers_reading ht rfl (fun _ => rfl) ?_
      rw [actReadModules, if_pos h, State.busSummary_eq] <;> rfl
    · refine State.answers_reading ht rfl (fun _ => rfl) ?_
      rw [actReadModules, if_neg (octet_ne_zero h), if_neg (by omega)]
      rfl
    · refine State.answers_reading ht rfl (fun _ => rfl) ?_
      rw [actReadModules, if_neg (octet_ne_zero (by omega)), if_pos h]
  case keyer =>
    refine ⟨fun h => ?_, fun f h h' hf => ?_, fun h h' => ?_, fun h => ?_⟩
    · refine State.answers_reading ht rfl (fun _ => rfl) ?_
      rw [actReadKeyer, if_pos h, State.keyerSummary_eq]
      rfl
    · refine State.answers_reading ht rfl (fun _ => rfl) ?_
      rw [actReadKeyer, if_neg (octet_ne_zero h), if_neg (by omega)]
      simp only [hf, Keyed.encode_eq]
    · refine State.answers_reading ht rfl (fun _ => rfl) ?_
      have hnone : s.key.history[part.toNat - 1]? = none := by
        rw [List.getElem?_eq_none_iff]; omega
      rw [actReadKeyer, if_neg (octet_ne_zero (by omega)), if_neg (by omega)]
      simp only [hnone]
    · refine State.answers_reading ht rfl (fun _ => rfl) ?_
      rw [actReadKeyer, if_neg (octet_ne_zero (by omega)), if_pos h]
  case schedule =>
    refine ⟨fun h => ?_, fun x h h' hx => ?_, fun h h' => ?_, fun h => ?_⟩
    · refine State.answers_reading ht rfl (fun _ => rfl) ?_
      rw [actReadSchedule, if_pos h, Schedule.summary_eq]
    · refine State.answers_reading ht rfl (fun _ => rfl) ?_
      rw [actReadSchedule, if_neg (octet_ne_zero h), if_neg (by omega)]
      simp only [hx, Entry.encode_eq, List.append_assoc]
    · refine State.answers_reading ht rfl (fun _ => rfl) ?_
      have hnone : s.sched.entries[part.toNat - 1]? = none := by
        rw [List.getElem?_eq_none_iff]; omega
      rw [actReadSchedule, if_neg (octet_ne_zero (by omega)), if_neg (by omega)]
      simp only [hnone]
      rfl
    · refine State.answers_reading ht rfl (fun _ => rfl) ?_
      rw [actReadSchedule, if_neg (octet_ne_zero (by omega)), if_pos h]
      rfl
  case retired =>
    refine ⟨fun h => ?_, fun x h h' hx => ?_, fun h h' => ?_, fun h => ?_⟩
    · refine State.answers_reading ht rfl (fun _ => rfl) ?_
      rw [actReadRetired, if_pos h]
    · refine State.answers_reading ht rfl (fun _ => rfl) ?_
      rw [actReadRetired, if_neg (octet_ne_zero h), if_neg (by omega)]
      simp only [hx, Retired.encode_eq, List.append_assoc]
    · refine State.answers_reading ht rfl (fun _ => rfl) ?_
      have hnone : s.sched.retired[part.toNat - 1]? = none := by
        rw [List.getElem?_eq_none_iff]; omega
      rw [actReadRetired, if_neg (octet_ne_zero (by omega)), if_neg (by omega)]
      simp only [hnone]
      rfl
    · refine State.answers_reading ht rfl (fun _ => rfl) ?_
      rw [actReadRetired, if_neg (octet_ne_zero (by omega)), if_pos h]
      rfl

end Sys2Proof

/-! The parameters (R216), and what MONITOR_ENABLE and SCAN_ENABLE switch (R156, R167). -/

namespace Sys2Proof.Machine

/-! ## The table and the stored values -/

theorem paramTable_none {id : Nat} (h : 16 < id) : paramTable[id]? = none := by
  rw [List.getElem?_eq_none_iff]
  exact h

theorem paramTable_le {id : Nat} {r : ParamRow} (h : paramTable[id]? = some r) : id ≤ 16 := by
  by_contra hlt
  rw [paramTable_none (by omega)] at h
  exact absurd h (by simp)

theorem paramTable_range {id : Nat} {r : ParamRow} (h : paramTable[id]? = some r) : r.lo ≤ r.hi := by
  have hall : ∀ x ∈ paramTable, x.lo ≤ x.hi := by decide
  exact hall r (List.mem_of_getElem? h)

/-- The last three parameters are settings, off or on. -/
theorem paramTable_setting {id : Nat} {r : ParamRow} (h : paramTable[id]? = some r) (h' : 14 ≤ id) :
    r.hi = 1 := by
  have hid := paramTable_le h
  interval_cases id <;> (obtain rfl := Option.some.inj h; rfl)

theorem ParamRow.take_eq {r : ParamRow} (h : r.lo ≤ r.hi) (v : Nat) :
    r.take v = if v < r.lo then r.lo else if r.hi < v then r.hi else v := by
  unfold ParamRow.take
  repeat' split
  all_goals omega

theorem Params.get_put_self (p : Params) {id v : Nat} (hid : id ≤ 16) (hv : 14 ≤ id → v ≤ 1) :
    (p.put id v).get id = v := by
  have hflag : 14 ≤ id → (v != 0).toNat = v := fun h => by
    have hle := hv h
    interval_cases v <;> rfl
  by_cases hsetting : 14 ≤ id
  · have hput : (p.put id v).get id = (v != 0).toNat := by interval_cases id <;> rfl
    exact hput.trans (hflag hsetting)
  · interval_cases id <;> rfl

theorem Params.get_put_other (p : Params) {id j : Nat} (v : Nat) (h : j ≠ id) :
    (p.put id v).get j = p.get j := by
  unfold Params.put
  split
  all_goals (unfold Params.get; split)
  all_goals first | rfl | exact absurd rfl h

theorem Params.put_get (p : Params) (id : Nat) : p.put id (p.get id) = p := by
  have hflag (b : Bool) : (b.toNat != 0) = b := by cases b <;> rfl
  unfold Params.put Params.get
  split <;> simp [hflag]

theorem toNat_inj {a b : Bool} (h : a.toNat = b.toNat) : a = b := by
  cases a <;> cases b <;> simp_all

theorem Params.put_monitorEnable (p : Params) {id : Nat} (v : Nat) (h : id ≠ 15) :
    (p.put id v).monitorEnable = p.monitorEnable :=
  toNat_inj (p.get_put_other v h.symm)

theorem Params.put_scanEnable (p : Params) {id : Nat} (v : Nat) (h : id ≠ 16) :
    (p.put id v).scanEnable = p.scanEnable :=
  toNat_inj (p.get_put_other v h.symm)

/-! ## An idle bus chooses (R153) -/

theorem State.kickBus_busy {s : State} (h : s.bus.txn.isSome = true) : s.kickBus = s := by
  unfold State.kickBus
  obtain ⟨y, hy⟩ := Option.isSome_iff_exists.mp h
  rw [if_neg (by simp [hy])]

theorem State.kickBus_idle {s : State} (h : s.bus.txn = none) : s.kickBus = s.chooseNext := by
  unfold State.kickBus
  rw [if_pos (by simp [h])]

/-- With no relay waiting and the scan on the bus begins a scan read. -/
theorem State.chooseNext_scan {s : State} (h : ∀ z ∈ s.bus.queue, z.underWay = true)
    (hs : s.params.scanEnable = true) : s.chooseNext = s.beginTxn true s.bus.pos 0 none := by
  have hnone : s.bus.queue.find? (fun x => !x.underWay) = none := by
    rw [List.find?_eq_none]
    intro z hz
    simp [h z hz]
  unfold State.chooseNext
  rw [hnone]
  exact if_pos hs

/-! ## A stored value acts (R156, R167) -/

theorem State.storeParam_params (s : State) (id v : Nat) : (s.storeParam id v).params = s.params.put id v := by
  simp [State.storeParam]

theorem State.monitorEnableChange_same {s0 s : State} (h : s.params.monitorEnable = s0.params.monitorEnable) :
    s0.monitorEnableChange s = s := by
  unfold State.monitorEnableChange
  rw [h]
  cases s0.params.monitorEnable <;> rfl

theorem State.scanEnableChange_same {s0 s : State} (h : s.params.scanEnable = s0.params.scanEnable) :
    s0.scanEnableChange s = s := by
  unfold State.scanEnableChange
  rw [h]
  exact if_neg (by simp)

/-- The monitor hears of its own parameter alone. -/
theorem State.storeParam_mon (s : State) (id v : Nat) : (s.storeParam id v).mon =
    (s.monitorEnableChange { s with params := s.params.put id v }).mon := by
  simp [State.storeParam]

theorem State.storeParam_mon_other (s : State) {id : Nat} (v : Nat) (h : id ≠ 15) :
    (s.storeParam id v).mon = s.mon := by
  rw [State.storeParam_mon, State.monitorEnableChange_same (s.params.put_monitorEnable v h)]

/-- The bus hears of its own parameter alone. -/
theorem State.storeParam_bus_other (s : State) {id : Nat} (v : Nat) (h : id ≠ 16) :
    (s.storeParam id v).bus = s.bus := by
  unfold State.storeParam
  rw [State.scanEnableChange_same (by simpa using s.params.put_scanEnable v h)]
  simp

theorem State.storeParam_same {s : State} {id v : Nat} (h : s.params.get id = v) : s.storeParam id v = s := by
  have hput : s.params.put id v = s.params := by rw [← h, Params.put_get]
  unfold State.storeParam
  simp only [hput]
  rw [State.monitorEnableChange_same rfl, State.scanEnableChange_same rfl]

theorem State.storeParam_monitorOff {s : State} (h : s.params.monitorEnable = true) :
    (s.storeParam 15 0).mon = s.mon.turnOff := by
  rw [State.storeParam_mon]
  unfold State.monitorEnableChange
  rw [h]
  rfl

theorem State.storeParam_monitorOn {s : State} (h : s.params.monitorEnable = false) :
    (s.storeParam 15 1).mon = s.mon.turnOn s.monIn s.now s.key.mode := by
  rw [State.storeParam_mon]
  unfold State.monitorEnableChange
  rw [h]
  rfl

/-- Storing SCAN_ENABLE. -/
theorem State.storeParam_scanEnable (s : State) (v : Nat) : s.storeParam 16 v =
    if s.params.scanEnable = false ∧ v ≠ 0 then { s with params := s.params.put 16 v }.kickBus
    else { s with params := s.params.put 16 v } := by
  unfold State.storeParam
  extract_lets s1
  have hmon : s.monitorEnableChange s1 = s1 := State.monitorEnableChange_same rfl
  rw [hmon]
  unfold State.scanEnableChange
  cases hs : s.params.scanEnable <;> simp [s1, Params.put]

/-- What a request leaves whose owning block neither reads nor writes the executor's turn. -/
theorem State.answersWith_turn {s s' y : State} {c : Instr} {l : Link} {q : Request} {act : State → Acted}
    {r : Result} {data : List Octet} (ht : s.takesUp c = true)
    (hc : c.asRequest = some (l, q)) (hx : ∀ s, exec c s = .next (s.request l q act))
    (hs : { s with exe := s.exe.serve l } = s') (ha : act s' = .answered r data y) (hy : y.exe = s'.exe) :
    s.AnswersWith c r data { y with exe := s.exe } := by
  refine State.answersWith_of ht hc hx ?_
  have hturn : s.exe.serve l = y.exe := by rw [hy, ← hs]
  rw [hs, ha, hturn]

theorem actSetParam_badArgument {id : Octet} {v : BitVec 16} {s : State} (h : 16 < id.toNat) :
    actSetParam id v s = .plain .badArgument s := by
  unfold actSetParam
  rw [paramTable_none h]

theorem actSetParam_ok {id : Octet} {v : BitVec 16} {s : State} {r : ParamRow}
    (h : paramTable[id.toNat]? = some r) : actSetParam id v s =
      .answered .ok (id :: encParam (r.take v.toNat)) (s.storeParam id.toNat (r.take v.toNat)) := by
  unfold actSetParam
  rw [h]

theorem actReadParam_badArgument {id : Octet} {s : State} (h : 16 < id.toNat) :
    actReadParam id s = .plain .badArgument s := by
  unfold actReadParam
  rw [paramTable_none h]

theorem actReadParam_ok {id : Octet} {s : State} {r : ParamRow} (h : paramTable[id.toNat]? = some r) :
    actReadParam id s = .answered .ok (id :: encParam (s.params.get id.toNat) ++ encParam r.lo ++
      encParam r.hi ++ encParam r.default) s := by
  unfold actReadParam
  rw [h]

end Sys2Proof.Machine

namespace Sys2Proof

open Sys2Proof.Machine

/-- Settles O57: a stored value is the nearest in range, and its own block alone acts on it. -/
theorem parametersAreClampedAndRead : Obligations.ParametersAreClampedAndRead := by
  refine ⟨fun l tag id v s ht => ?set, fun l tag id s ht => ?read⟩
  case read =>
    refine ⟨fun h => ?_, fun r hr => ?_⟩
    · exact State.answers_reading ht rfl (fun _ => rfl) (actReadParam_badArgument h)
    · exact State.answers_reading ht rfl (fun _ => rfl) (actReadParam_ok hr)
  case set =>
    refine ⟨fun h => State.answers_reading ht rfl (fun _ => rfl) (actSetParam_badArgument h),
      fun r hr => ?_⟩
    intro taken
    have htake : r.take v.toNat = taken := ParamRow.take_eq (paramTable_range hr) v.toNat
    have hsetting : 14 ≤ id.toNat → taken ≤ 1 := fun h => by
      have hlo := paramTable_range hr
      rw [paramTable_setting hr h] at hlo
      rw [← htake, ParamRow.take, paramTable_setting hr h]
      omega
    generalize hs' : ({ s with exe := s.exe.serve l } : State) = s'
    have hsame : s'.params = s.params ∧ s'.mon = s.mon ∧ s'.bus = s.bus ∧ s'.monIn = s.monIn ∧
        s'.now = s.now ∧ s'.key = s.key := by
      rw [← hs']
      exact ⟨rfl, rfl, rfl, rfl, rfl, rfl⟩
    obtain ⟨hparams, hmon, hbus, hmonIn, hnow, hkey⟩ := hsame
    have hact : actSetParam id v s' = .answered .ok (id :: octetsBE 2 taken) (s'.storeParam id.toNat taken) := by
      rw [actSetParam_ok hr, htake]
      rfl
    have hnum (n : Nat) (hn : n < 256) (h : id ≠ BitVec.ofNat 8 n) : id.toNat ≠ n := fun he =>
      h (BitVec.eq_of_toNat_eq (by rw [he, BitVec.toNat_ofNat, Nat.mod_eq_of_lt hn]))
    refine ⟨_, State.answersWith_turn (act := actSetParam id v) ht rfl (fun _ => rfl) hs' hact
      (by simp), ?_, fun j hj => ?_, fun h => ?_, fun h => ?_, fun h => ?_, fun h he ho => ?_,
      fun h he ho => ?_, fun h ho => ?_, fun h he ho htxn hq => ?_, ?_⟩
    · rw [State.storeParam_params]
      exact Params.get_put_self _ (paramTable_le hr) hsetting
    · rw [State.storeParam_params, hparams]
      exact Params.get_put_other _ _ hj
    · exact (s'.storeParam_mon_other taken (hnum 15 (by decide) h)).trans hmon
    · exact (s'.storeParam_bus_other taken (hnum 16 (by decide) h)).trans hbus
    · rw [State.storeParam_same (by rw [hparams, h]), ← hs']
    · subst h
      refine (congrArg (fun n => (s'.storeParam 15 n).mon) ho).trans
        ((State.storeParam_monitorOff (by rw [hparams, he])).trans ?_)
      rw [hmon]
      rfl
    · subst h
      refine (congrArg (fun n => (s'.storeParam 15 n).mon) ho).trans
        ((State.storeParam_monitorOn (by rw [hparams, he])).trans ?_)
      rw [hmon, hmonIn, hnow, hkey]
      rfl
    · subst h
      have hturn := s'.storeParam_scanEnable taken
      rw [← hbus]
      refine (congrArg State.bus hturn).trans ?_
      split
      case isFalse => rfl
      case isTrue hc =>
        have hbusy : s.bus.txn.isSome = true := ho.resolve_left hc.2
        rw [State.kickBus_busy (by simpa [hbus] using hbusy)]
    · subst h
      have hturn := s'.storeParam_scanEnable taken
      rw [if_pos ⟨by rw [hparams, he], by omega⟩, State.kickBus_idle (by simpa [hbus] using htxn),
        State.chooseNext_scan (by simp [hbus, hq]) (by simp [Params.put, ho])] at hturn
      rw [← hbus]
      refine (congrArg State.bus hturn).trans ?_
      simp [State.beginTxn, Params.put, hparams]
    · apply State.ext <;> simp [← hs']

end Sys2Proof

/-! The amplifier bus: the scan table, the scan range (R155, R158, R159), and the ends of transactions
(R151..R153, R155, R161). -/

namespace Sys2Proof.Machine

/-! ## The scan table -/

theorem Bus.inRange_iff (b : Bus) (a : Nat) : b.inRange a = true ↔ b.first ≤ a ∧ a ≤ b.last := by
  simp [Bus.inRange]

theorem Bus.record_setRecord_same (b : Bus) {a : Nat} (r : ScanRec) (h : 1 ≤ a) (h' : a ≤ 31) :
    (b.setRecord a r).record a = r := by
  have hlt : a - 1 < 31 := by omega
  simp [Bus.record, Bus.setRecord, Vector.getElem?_eq_getElem hlt]

theorem Bus.record_setRecord_other (b : Bus) {a c : Nat} (r : ScanRec) (h : 1 ≤ a) (hc : 1 ≤ c)
    (hne : c ≠ a) : (b.setRecord a r).record c = b.record c := by
  have hidx : a - 1 ≠ c - 1 := by omega
  simp [Bus.record, Bus.setRecord, hidx]

theorem Bus.record_setRange (b : Bus) {first last a : Nat} (h : 1 ≤ a) (h' : a ≤ 31) :
    (b.setRange first last).record a =
      if (b.first ≤ a ∧ a ≤ b.last) ∧ ¬(first ≤ a ∧ a ≤ last) then ScanRec.reset else b.record a := by
  have hlt : a - 1 < 31 := by omega
  have hidx : a - 1 + 1 = a := by omega
  simp only [Bus.record, Bus.setRange, Bus.tableFor, Vector.getElem?_eq_getElem hlt, Vector.getElem_mapIdx,
    Option.getD_some, hidx, Bool.and_eq_true, Bus.inRange_iff, Bool.not_eq_true', ← Bool.not_eq_true,
    decide_eq_true_eq]

theorem Bus.someLeaves_iff (b : Bus) (first last : Nat) : b.someLeaves first last = true ↔
    ∃ a, a ≤ 31 ∧ (b.first ≤ a ∧ a ≤ b.last) ∧ ¬(first ≤ a ∧ a ≤ last) ∧ (b.record a).st ≠ .unknown := by
  simp only [Bus.someLeaves, List.any_eq_true, List.mem_range, Bool.and_eq_true, Bus.inRange_iff,
    Bool.not_eq_true', decide_eq_true_eq, ← Bool.not_eq_true]
  constructor
  · rintro ⟨a, ha, ⟨hin, hout⟩, hst⟩
    exact ⟨a, by omega, hin, hout, hst⟩
  · rintro ⟨a, ha, hin, hout, hst⟩
    exact ⟨a, by omega, ⟨hin, hout⟩, hst⟩

/-! ## SET_SCAN (R159) -/

section
variable {first last m : Octet} {s : State}

theorem octet_eq_zero_iff {o : Octet} : o = 0 ↔ o.toNat = 0 :=
  ⟨fun h => by rw [h]; rfl, fun h => BitVec.eq_of_toNat_eq h⟩

theorem min_octet (v : Nat) : min 31 v = if 31 < v then 31 else v := by
  split <;> omega

theorem actSetScan_badArgument (h : ¬(1 ≤ first.toNat ∧ first.toNat ≤ last.toNat ∧ last.toNat ≤ 31)) :
    actSetScan first last m s = .plain .badArgument s := by
  refine if_pos ?_
  simp only [Bool.or_eq_true, decide_eq_true_eq, octet_eq_zero_iff]
  omega

theorem actSetScan_ok (h1 : 1 ≤ first.toNat) (h2 : first.toNat ≤ last.toNat) (h3 : last.toNat ≤ 31) :
    actSetScan first last m s = .answered .ok [first, last, BitVec.ofNat 8 (min 31 m.toNat)]
      (State.changeRange { s with params := { s.params with minModules := min 31 m.toNat } }
        first.toNat last.toNat) := by
  have hdata : octetsBE 1 first.toNat ++ octetsBE 1 last.toNat ++ octetsBE 1 (min 31 m.toNat) =
      [first, last, BitVec.ofNat 8 (min 31 m.toNat)] := by
    rw [octetsBE_one_toNat, octetsBE_one_toNat]
    rfl
  rw [← hdata]
  refine if_neg ?_
  simp only [Bool.or_eq_true, decide_eq_true_eq, octet_eq_zero_iff]
  omega

theorem State.changeRange_same {f l : Nat} (hf : f = s.bus.first) (hl : l = s.bus.last) :
    s.changeRange f l = s := if_pos (by simp [hf, hl])

/-- SET_SCAN of the range that stands writes MIN_MODULES alone. -/
theorem actSetScan_same (h1 : 1 ≤ first.toNat) (h2 : first.toNat ≤ last.toNat) (h3 : last.toNat ≤ 31)
    (hf : first.toNat = s.bus.first) (hl : last.toNat = s.bus.last) :
    actSetScan first last m s = .answered .ok [first, last, BitVec.ofNat 8 (min 31 m.toNat)]
      { s with params := { s.params with minModules := min 31 m.toNat } } := by
  exact (actSetScan_ok h1 h2 h3).trans (congrArg _ (State.changeRange_same
    (s := { s with params := { s.params with minModules := min 31 m.toNat } }) hf hl))

theorem State.changeRange_new {f l : Nat} (h : ¬(f = s.bus.first ∧ l = s.bus.last)) :
    s.changeRange f l = { s with bus := s.bus.setRange f l }.raiseIf (s.bus.someLeaves f l) .moduleChange :=
  if_neg (by simpa using h)

end

end Sys2Proof.Machine

namespace Sys2Proof

open Sys2Proof.Machine

/-- Settles O56: refused, or by the range as it was. -/
theorem setScanChangesTheRange : Obligations.SetScanChangesTheRange := by
  intro l tag first last m s ht c m'
  have hm : min 31 m.toNat = m' := min_octet m.toNat
  refine ⟨fun h => State.answers_reading ht rfl (fun _ => rfl) (actSetScan_badArgument h),
    fun h1 h2 h3 => ⟨fun hf hl => ?same, fun hne => ?new⟩⟩
  case same =>
    rw [← hm]
    exact State.answers_of ht rfl (fun _ => rfl)
      (actSetScan_same (s := { s with exe := s.exe.serve l }) h1 h2 h3 hf hl)
  case new =>
    generalize hs' : ({ s with exe := s.exe.serve l } : State) = s'
    have hbus : s'.bus = s.bus := by rw [← hs']
    have hact := actSetScan_ok (m := m) (s := s') h1 h2 h3
    rw [State.changeRange_new (by simpa [hbus] using hne), hm] at hact
    refine ⟨_, State.answersWith_turn ht rfl (fun _ => rfl) hs' hact (by simp), by simp [← hs'], by simp [Bus.setRange],
      by simp [hbus, Bus.setRange], fun a ha ha' => ?_, fun hleaves => ?_, fun hstay => ?_, by simp [hbus, Bus.setRange],
      ?_⟩
    · have hrec := s.bus.record_setRange (first := first.toNat) (last := last.toNat) ha ha'
      simp only [State.raiseIf_frame, hbus]
      exact hrec
    · have htrue : s'.bus.someLeaves first.toNat last.toNat = true := by
        rw [hbus]
        exact (Bus.someLeaves_iff _ _ _).mpr hleaves
      have hviews := State.raiseIf_views_self { s' with
        params := { s'.params with minModules := m' }, bus := s'.bus.setRange first.toNat last.toNat }
        (s'.bus.someLeaves first.toNat last.toNat) .moduleChange
      rw [htrue] at hviews
      simp only [htrue]
      exact State.views_of_raised hviews
    · have hfalse : s'.bus.someLeaves first.toNat last.toNat = false := by
        rw [hbus, ← Bool.not_eq_true, Bus.someLeaves_iff]
        rintro ⟨a, ha, hin, hout, hst⟩
        exact hst (hstay a ha hin hout)
      simp only [hfalse]
      simp [State.raiseIf, ← hs']
    · apply State.ext <;> simp [← hs']

end Sys2Proof

/-! The ends of transactions (R151..R153, R155, R158, R161): the scan read. -/

namespace Sys2Proof.Machine

/-! ## What the bus carries next (R153) -/

theorem State.chooseNext_bus (s : State) :
    s.chooseNext.bus.table = s.bus.table ∧ s.chooseNext.bus.first = s.bus.first ∧
      s.chooseNext.bus.last = s.bus.last ∧ s.chooseNext.bus.pos = s.bus.pos := by
  unfold State.chooseNext
  repeat' split
  all_goals simp [State.beginTxn]

theorem State.chooseNext_waiting {s : State} {z : RelayEntry} {zs : List RelayEntry}
    (h : s.bus.queue = z :: zs) (hz : z.underWay = false) :
    s.chooseNext.bus.queue = { z with underWay := true } :: zs ∧
      s.chooseNext.bus.txn = some (s.firstAttempt false z.address z.register z.value) := by
  simp [State.chooseNext, h, hz, State.beginTxn, updateFirst, RelayEntry.begun, State.firstAttempt]

theorem State.chooseNext_empty {s : State} (h : s.bus.queue = []) (ht : s.bus.txn = none) :
    s.chooseNext.bus.queue = [] ∧ s.chooseNext.bus.txn =
      if s.params.scanEnable then some (s.firstAttempt true s.bus.pos 0 none) else none := by
  cases hs : s.params.scanEnable <;>
    simp [State.chooseNext, h, ht, hs, State.beginTxn, State.firstAttempt]

/-- The bus that chooses after `u` goes on from `s`, of which `u` has the parameters and the range. -/
theorem State.goesOn_chooseNext {s u t : State} (hparams : u.params = s.params) (hfirst : u.bus.first = s.bus.first)
    (hlast : u.bus.last = s.bus.last) (htxn : u.bus.txn = none)
    (hq : ∀ z ∈ u.bus.queue, z.underWay = false) (ht : t.bus = u.chooseNext.bus) :
    s.GoesOn t u.bus.queue := by
  obtain ⟨-, hf, hl, hpos⟩ := u.chooseNext_bus
  have hattempt (scan : Bool) (a r : Nat) (v : Option (BitVec 16)) :
      u.firstAttempt scan a r v = s.firstAttempt scan a r v := by simp only [State.firstAttempt, hparams]
  refine ⟨fun z zs hz => ?_, fun hz => ?_, by rw [ht, hf, hl, hfirst, hlast]⟩
  · rw [ht, ← hattempt]
    exact State.chooseNext_waiting hz (hq z (by simp [hz]))
  · rw [ht, hpos, ← hattempt, ← hparams]
    exact State.chooseNext_empty hz htxn

theorem State.raiseIf_live (s : State) (b : Bool) (e : Event) : (s.raiseIf b e).cond.live = s.cond.live := by
  cases b <;> rfl

/-! ## The outcome of a read of register 0 (R154, R155, R158) -/

theorem State.recordOutcome_outside {s : State} {a : Nat} (h : ¬(s.bus.first ≤ a ∧ a ≤ s.bus.last))
    (answer : Option (BitVec 16)) : s.recordOutcome a answer = s :=
  if_neg (by rwa [Bus.inRange_iff])

/-- The record that the outcome gives. -/
def ScanRec.outcome (r : ScanRec) : Option (BitVec 16) → ScanRec
  | some w => ScanRec.answered w
  | none => r.unanswered

theorem State.recordOutcome_inside {s : State} {a : Nat} (h : s.bus.first ≤ a) (h' : a ≤ s.bus.last)
    (answer : Option (BitVec 16)) :
    s.recordOutcome a answer = s.updateRecord a ((s.bus.record a).outcome answer) := by
  unfold State.recordOutcome
  rw [if_pos ((Bus.inRange_iff _ _).mpr ⟨h, h'⟩)]
  cases answer <;> rfl

theorem State.updateRecord_bus (s : State) (a : Nat) (r : ScanRec) :
    (s.updateRecord a r).bus = s.bus.setRecord a r := by
  simp [State.updateRecord]

theorem State.updateRecord_views (s : State) (a : Nat) (r : ScanRec) : (s.updateRecord a r).views 21 =
    if (s.bus.record a).st ≠ r.st then (true, true) else s.views 21 := by
  refine (State.raiseIf_views_self _ _ .moduleChange).trans ?_
  by_cases h : (s.bus.record a).st = r.st
  · simp [h]
    rfl
  · simp [h]

/-- An outcome touches the table and the views of the part alone. -/
theorem State.recordOutcome_bus (s : State) (a : Nat) (answer : Option (BitVec 16)) :
    (s.recordOutcome a answer).bus = { s.bus with table := (s.recordOutcome a answer).bus.table } := by
  unfold State.recordOutcome
  split
  · rw [State.updateRecord_bus]
    rfl
  · rfl

theorem State.recordOutcome_live (s : State) (a : Nat) (answer : Option (BitVec 16)) :
    (s.recordOutcome a answer).cond.live = s.cond.live := by
  unfold State.recordOutcome
  split
  · exact State.raiseIf_live _ _ _
  · rfl

/-- What an outcome makes of the record of an address in the range, and of MODULE_CHANGE. -/
theorem State.recordOutcome_reads {s : State} {a : Nat} (h1 : 1 ≤ a) (h31 : a ≤ 31) (hf : s.bus.first ≤ a)
    (hl : a ≤ s.bus.last) (answer : Option (BitVec 16)) :
    (s.recordOutcome a answer).bus.record a = (s.bus.record a).outcome answer ∧
      (∀ c, 1 ≤ c → c ≤ 31 → c ≠ a → (s.recordOutcome a answer).bus.record c = s.bus.record c) ∧
      (s.recordOutcome a answer).views 21 =
        if (s.bus.record a).st ≠ ((s.bus.record a).outcome answer).st then (true, true)
        else s.views 21 := by
  rw [State.recordOutcome_inside hf hl, State.updateRecord_bus]
  exact ⟨Bus.record_setRecord_same _ _ h1 h31, fun c hc _ hne => Bus.record_setRecord_other _ _ h1 hc hne,
    State.updateRecord_views _ _ _⟩

theorem Bus.alarm_of_silent {b : Bus} {a : Nat} (h : a ≤ 31) (hin : b.first ≤ a ∧ a ≤ b.last)
    (hs : (b.record a).st = .silent) : b.alarm = true := by
  simp only [Bus.alarm, List.any_eq_true, List.mem_range]
  exact ⟨a, by omega, by simp [Bus.inRange, hin, hs]⟩

theorem Bus.record_congr {b c : Bus} (h : c.table = b.table) (a : Nat) : c.record a = b.record a := by
  simp only [Bus.record, h]

/-! ## The end of a scan read (R155, R159) -/

theorem State.scanEnds_bus (s : State) (x : Txn) (answer : Option (BitVec 16)) :
    (s.scanEnds x answer).bus = { s.bus with
      table := (s.recordOutcome x.address answer).bus.table
      pos := if x.rangeChanged then s.bus.pos
        else if s.bus.last ≤ s.bus.pos then s.bus.first else s.bus.pos + 1 } := by
  have hmove (b : Bus) (table : Vector ScanRec 31) (hb : b = { s.bus with table := table }) :
      { b with pos := b.after b.pos } = { s.bus with
        table := table, pos := if s.bus.last ≤ s.bus.pos then s.bus.first else s.bus.pos + 1 } := by
    rw [hb]
    rfl
  unfold State.scanEnds
  cases x.rangeChanged with
  | true => exact s.recordOutcome_bus x.address answer
  | false => exact hmove _ _ (s.recordOutcome_bus x.address answer)

theorem State.scanEnds_cond (s : State) (x : Txn) (answer : Option (BitVec 16)) :
    (s.scanEnds x answer).cond = (s.recordOutcome x.address answer).cond := by
  unfold State.scanEnds
  extract_lets s1
  split <;> rfl

theorem State.txnEnds_scan {s : State} {x : Txn} (h : x.scan = true) (answer : Option (BitVec 16)) :
    s.txnEnds x answer = (State.scanEnds { s with bus := { s.bus with txn := none } } x answer).chooseNext := by
  simp only [State.txnEnds, h, if_true]

theorem State.txnEnds_scan_range (s : State) {x : Txn} (h : x.scan = true) (answer : Option (BitVec 16)) :
    (s.txnEnds x answer).bus.first = s.bus.first ∧ (s.txnEnds x answer).bus.last = s.bus.last := by
  obtain ⟨-, hf, hl, -⟩ := (State.scanEnds { s with bus := { s.bus with txn := none } } x answer).chooseNext_bus
  rw [State.txnEnds_scan h, hf, hl, State.scanEnds_bus]
  exact ⟨rfl, rfl⟩

theorem State.settle_moduleAlarm (s : State) : s.settle.cond.active.getLsbD 9 = s.bus.alarm := by
  rw [State.settle_active, State.activeNow_getLsbD]
  rfl

end Sys2Proof.Machine

namespace Sys2Proof

open Sys2Proof.Machine

/-- Settles O54: an attempt's sending, answer and silence, and the end of a scan read by either. -/
theorem scanReadSetsItsRecord : Obligations.ScanReadSetsItsRecord := by
  unfold Obligations.ScanReadSetsItsRecord
  intro ended
  have hended (s e : State) (x : Txn) (answer : Option (BitVec 16)) (hscan : x.scan = true)
      (hbus : e.bus = s.bus) (hparams : e.params = s.params) (hviews : e.views 21 = s.views 21)
      (hframe : e = { s with now := e.now, cond := e.cond }) :
      ended s (e.txnEnds x answer).settle x ((s.bus.record x.address).outcome answer) := by
    generalize he' : ({ e with bus := { e.bus with txn := none } } : State) = e'
    have hbus' : e'.bus = { s.bus with txn := none } := by rw [← he', hbus]
    have hend : e.txnEnds x answer = (e'.scanEnds x answer).chooseNext := by
      rw [State.txnEnds_scan hscan, he']
    have hrec (a : Nat) : e'.bus.record a = s.bus.record a := by rw [hbus']; rfl
    have hviews' : e'.views 21 = s.views 21 := by rw [← he', ← hviews]; rfl
    obtain ⟨htable, -, -, hpos⟩ := (e'.scanEnds x answer).chooseNext_bus
    have hub := e'.scanEnds_bus x answer
    generalize hu : e'.scanEnds x answer = u at hend htable hpos hub
    generalize ht : (e.txnEnds x answer).settle = t
    have htb : t.bus = u.chooseNext.bus := by rw [← ht, hend]; simp
    have htv : t.views 21 = (e'.recordOutcome x.address answer).views 21 := by
      rw [← ht, State.settle_views _ (by decide), hend, ← State.views_congr (e'.scanEnds_cond x answer), hu]
      exact State.views_congr (by simp) 21
    have htr : t.bus.table = (e'.recordOutcome x.address answer).bus.table := by rw [htb, htable, hub]
    refine ⟨fun h1 h31 hf hl => ?_, fun hout => ?_, fun hx => ?_, fun hx => ?_, fun hq => ?_, ?_⟩
    · obtain ⟨hsame, hother, hv⟩ := State.recordOutcome_reads (s := e') h1 h31 (by rw [hbus']; exact hf)
        (by rw [hbus']; exact hl) answer
      rw [hrec] at hsame hv
      rw [← htv, hviews'] at hv
      refine ⟨(Bus.record_congr htr _).trans hsame, fun a ha ha' hne => ?_, fun hne => ?_, fun heq => ?_⟩
      · rw [Bus.record_congr htr, hother a ha ha' hne, hrec]
      · exact State.views_of_raised (hv.trans (if_pos hne))
      · exact hv.trans (if_neg (not_not.mpr heq))
    · rw [State.recordOutcome_outside (by rw [hbus']; exact hout)] at htv htr
      exact ⟨htr.trans (by rw [hbus']), htv.trans hviews'⟩
    · rw [htb, hpos, hub, hbus', hx]
      rfl
    · rw [htb, hpos, hub, hbus', hx]
      rfl
    · have hqueue : u.bus.queue = s.bus.queue := by rw [hub, hbus']
      rw [← hqueue]
      refine State.goesOn_chooseNext ?_ ?_ ?_ ?_ (by rwa [hqueue]) htb
      · rw [← hu, ← hparams, ← he']; simp
      · rw [hub, hbus']
      · rw [hub, hbus']
      · rw [hub, hbus']
    · rw [← ht, hend, ← hu, ← he']
      apply State.ext <;> rw [hframe] <;> simp
  have hlive (e : State) (x : Txn) (answer : Option (BitVec 16)) (hscan : x.scan = true) :
      (e.txnEnds x answer).settle.cond.live = e.cond.live := by
    rw [State.txnEnds_scan hscan]
    have hchoose (u : State) : u.chooseNext.settle.cond.live = u.cond.live := by
      rw [← u.chooseNext_frame.2.2.2.2.2.2.2.2.2.2.2.2.2.2.2.1]
      rfl
    rw [hchoose, State.scanEnds_cond, State.recordOutcome_live]
  refine ⟨fun dt s x hp hx hph => ?sent, fun dt w s x e hp hx hph hle hs => ?answered,
    fun dt w s x e hp hx hph hlt => ?late, fun s x e hp hx hph hr => ?retry,
    fun s x e hp hx hph hr hs => ?silent⟩
  case sent =>
    simp [exec, execAttemptSent, State.wait, hp, hx, hph, answerTime]
  case answered =>
    have hopen : x.phase.openAt (s.now + dt) = true := by simpa [hph, AttemptPhase.openAt] using hle
    have hexec : exec (.moduleAnswer w dt) s = .next ((s.wait dt).txnEnds x (some w)).settle := by
      simp [exec, execModuleAnswer, State.wait, hp, hx, hopen]
    exact ⟨_, hexec, by simp [State.wait], hended s _ x (some w) hs rfl rfl rfl rfl⟩
  case late =>
    have hopen : x.phase.openAt (s.now + dt) = false := by simpa [hph, AttemptPhase.openAt] using hlt
    simp [exec, execModuleAnswer, State.wait, hx, hopen]
  case retry =>
    have hexec : exec .answerWindowExpiry s = .next ((s.waitUntil e).noAnswer x).settle := by
      simp [exec, execAnswerWindowExpiry, hp, hx, hph]
    rw [State.noAnswer, if_pos hr] at hexec
    refine ⟨_, hexec, by simp [State.waitUntil], by simp [State.waitUntil], ?_, ?_⟩
    · exact State.count_live _ .ampRetriesCount 1
    · apply State.ext <;> simp [State.waitUntil]
  case silent =>
    have hexec : exec .answerWindowExpiry s =
        .next (((s.waitUntil e).count .ampNoAnswer 1).txnEnds x none).settle := by
      simp [exec, execAnswerWindowExpiry, hp, hx, hph, State.noAnswer, Nat.not_le.mpr hr]
    have hall := hended s ((s.waitUntil e).count .ampNoAnswer 1) x none hs rfl rfl rfl rfl
    refine ⟨_, hexec, by simp [State.waitUntil], hall, fun h1 h31 hf hl => ?_, ?_⟩
    · obtain ⟨hread, -⟩ := hall.1 h1 h31 hf hl
      obtain ⟨hfirst, hlast⟩ := ((s.waitUntil e).count .ampNoAnswer 1).txnEnds_scan_range hs none
      rw [State.settle_moduleAlarm]
      refine Bus.alarm_of_silent h31 (by rw [hfirst, hlast]; exact ⟨hf, hl⟩) ?_
      exact congrArg ScanRec.st hread
    · rw [hlive _ x none hs]
      exact State.count_live _ .ampNoAnswer 1

end Sys2Proof

/-! The relayed accesses (R158, R160, R161). -/

namespace Sys2Proof.Machine

/-! ## A response on its link (R211) -/

theorem updateFirst_append {α : Type} {p : α → Bool} (f : α → α) {before after : List α} {e : α}
    (hb : ∀ z ∈ before, p z = false) (he : p e = true) :
    updateFirst p f (before ++ e :: after) = before ++ f e :: after := by
  induction before with
  | nil => simp [updateFirst, he]
  | cons z zs ih =>
    simp only [List.cons_append, updateFirst, hb z (by simp), Bool.false_eq_true, if_false]
    rw [ih fun y hy => hb y (by simp [hy])]

theorem State.respond_link (s : State) (l : Link) (st : EntryState) (tag : Tag) (code : Octet) (r : Result)
    (data : List Octet) :
    ((s.respond l st tag code r data).link l).output = (s.link l).output ++ [{
      tag := tag, code := code, result := r, data := data, atOnce := false, relayed := st = .inRelay }] ∧
    ((s.respond l st tag code r data).link l).outstanding =
      ((s.link l).mark tag code st .answered).outstanding ∧
    (s.respond l st tag code r data).link l.other = s.link l.other := by
  simp [State.respond, LinkState.mark]

/-- The response marks the first entry of its TAG and CODE in the state. -/
theorem LinkState.mark_answered {ls : LinkState} {tag : Tag} {code : Octet} {st : EntryState}
    {before after : List Outstanding} {e : Outstanding} (h : ls.outstanding = before ++ e :: after)
    (he : e.st = st ∧ e.req.tag = tag ∧ e.req.code = code)
    (hb : ∀ z ∈ before, ¬(z.st = st ∧ z.req.tag = tag ∧ z.req.code = code)) :
    (ls.mark tag code st .answered).outstanding = before ++ { e with st := .answered } :: after := by
  simp only [LinkState.mark, h]
  rw [updateFirst_append]
  · simp [Outstanding.goTo]
  · intro z hz
    simpa [and_assoc] using hb z hz
  · simpa [and_assoc] using he

/-! ## Entering the queue (R160) -/

section
variable {s : State} {y : RelayEntry}

theorem State.relay_badArgument (h : y.address = 0 ∨ 31 < y.address ∨ 15 < y.register) :
    s.relay y = .plain .badArgument s := if_pos (by simpa [or_assoc] using h)

theorem State.relay_busy (h0 : y.address ≠ 0) (h1 : y.address ≤ 31) (h2 : y.register ≤ 15)
    (hq : 4 ≤ s.bus.queue.length) : s.relay y = .plain .busy s := by
  unfold State.relay
  rw [if_neg (by simp; omega), if_pos hq]

theorem State.relay_ok (h0 : y.address ≠ 0) (h1 : y.address ≤ 31) (h2 : y.register ≤ 15)
    (hq : s.bus.queue.length < 4) : s.relay y =
      .relayed (State.kickBus { s with bus := { s.bus with queue := s.bus.queue ++ [y] } }) := by
  unfold State.relay
  rw [if_neg (by simp; omega), if_neg (by omega)]

/-! ## The end of a relay (R161) -/

theorem State.txnEnds_relay {x : Txn} (h : x.scan = false) (answer : Option (BitVec 16)) :
    s.txnEnds x answer = (State.relayEnds { s with bus := { s.bus with txn := none } } x answer).chooseNext := by
  simp [State.txnEnds, h]

/-- The state in which the relay under way has left the queue and is answered. -/
def State.relayLeft (s : State) (y : RelayEntry) (rest : List RelayEntry) (attempts : Nat)
    (answer : Option (BitVec 16)) : State :=
  State.relayResponse { s with bus := { s.bus with queue := rest } } y attempts answer

theorem State.relayEnds_eq {x : Txn} {rest : List RelayEntry} (h : s.bus.queue = y :: rest)
    (hy : y.underWay = true) (hrest : ∀ z ∈ rest, z.underWay = false) (answer : Option (BitVec 16)) :
    s.relayEnds x answer =
      if x.value.isNone && x.register = 0 && answer.isSome then
        (s.relayLeft y rest x.attempts answer).recordOutcome x.address answer
      else s.relayLeft y rest x.attempts answer := by
  have hfind : s.bus.queue.find? (·.underWay) = some y := by rw [h]; simp [hy]
  have hfilter : s.bus.queue.filter (fun z => !z.underWay) = rest := by
    rw [h, List.filter_cons_of_neg (by simp [hy]), List.filter_eq_self]
    exact fun z hz => by simp [hrest z hz]
  simp only [State.relayEnds, hfind, hfilter]
  rfl

theorem State.relayResponse_unwanted (h : y.wanted = false) (n : Nat) (answer : Option (BitVec 16)) :
    s.relayResponse y n answer = s := if_neg (by simp [h])

theorem State.relayResponse_answered (h : y.wanted = true) (n : Nat) (w : BitVec 16) :
    s.relayResponse y n (some w) = s.respond y.link .inRelay y.tag y.code .ok
      (octetsBE 2 (y.value.getD w).toNat ++ octetsBE 1 n) := if_pos h

theorem State.relayResponse_silent (h : y.wanted = true) (n : Nat) :
    s.relayResponse y n none = s.respond y.link .inRelay y.tag y.code .noAnswer (octetsBE 1 n) := if_pos h

end

theorem State.link_congr {s t : State} (ha : t.linkA = s.linkA) (hb : t.linkB = s.linkB) (l : Link) :
    t.link l = s.link l := by
  cases l
  · exact ha
  · exact hb

/-- A bus with one entry waiting begins it. -/
theorem State.chooseNext_one {s : State} {y : RelayEntry} (h : s.bus.queue = [y]) (hy : y.underWay = false) :
    s.chooseNext = { s with bus := { s.bus with
      queue := [{ y with underWay := true }]
      txn := some (s.firstAttempt false y.address y.register y.value) } } := by
  simp [State.chooseNext, h, hy, State.beginTxn, updateFirst, RelayEntry.begun, State.firstAttempt]

theorem State.relayLeft_bus (s : State) (y : RelayEntry) (rest : List RelayEntry) (n : Nat)
    (answer : Option (BitVec 16)) : (s.relayLeft y rest n answer).bus = { s.bus with queue := rest } := by
  simp [State.relayLeft]

theorem State.relayEnds_link {s : State} {x : Txn} {y : RelayEntry} {rest : List RelayEntry}
    (h : s.bus.queue = y :: rest) (hy : y.underWay = true) (hrest : ∀ z ∈ rest, z.underWay = false)
    (answer : Option (BitVec 16)) (l : Link) :
    (s.relayEnds x answer).link l = (s.relayLeft y rest x.attempts answer).link l := by
  rw [State.relayEnds_eq h hy hrest]
  split
  · exact State.link_congr (by simp) (by simp) l
  · rfl

theorem State.relayEnds_bus {s : State} {x : Txn} {y : RelayEntry} {rest : List RelayEntry}
    (h : s.bus.queue = y :: rest) (hy : y.underWay = true) (hrest : ∀ z ∈ rest, z.underWay = false)
    (answer : Option (BitVec 16)) :
    (s.relayEnds x answer).bus = { s.bus with queue := rest, table := (s.relayEnds x answer).bus.table } := by
  have hleft := s.relayLeft_bus y rest x.attempts answer
  rw [State.relayEnds_eq h hy hrest]
  split
  · rw [State.recordOutcome_bus, hleft]
  · rw [hleft]

/-- A relayed access has been taken up: it waits behind a transaction in progress, and begins on an idle
bus. -/
def State.RelayAccepted (s : State) (c : Instr) (l : Link) (y : RelayEntry) : Prop :=
  (s.bus.txn.isSome = true → ∃ t, exec c s = .next t ∧
    t.bus = { s.bus with queue := s.bus.queue ++ [y] } ∧ (t.link l).output = (s.link l).output ∧
    t = { s with bus := t.bus, linkA := t.linkA, linkB := t.linkB, exe := t.exe, cond := t.cond }) ∧
  (s.bus.txn = none → s.bus.queue = [] → ∃ t, exec c s = .next t ∧
    t.bus = { s.bus with
      queue := [{ y with underWay := true }]
      txn := some (s.firstAttempt false y.address y.register y.value) } ∧
    (t.link l).output = (s.link l).output ∧
    t = { s with bus := t.bus, linkA := t.linkA, linkB := t.linkB, exe := t.exe, cond := t.cond })

/-- The relay `y` has ended, with `rest` waiting behind it: it is answered if it is still wanted, and the
bus goes on. -/
def State.RelayEnded (s t : State) (y : RelayEntry) (rest : List RelayEntry) (r : Result)
    (data : List Octet) : Prop :=
  (y.wanted = true →
    (t.link y.link).output = (s.link y.link).output ++ [{
      tag := y.tag, code := y.code, result := r, data := data, atOnce := false, relayed := true }] ∧
    t.link y.link.other = s.link y.link.other ∧
    (∀ before e after, (s.link y.link).outstanding = before ++ e :: after →
      (e.st = .inRelay ∧ e.req.tag = y.tag ∧ e.req.code = y.code) →
      (∀ z ∈ before, ¬(z.st = .inRelay ∧ z.req.tag = y.tag ∧ z.req.code = y.code)) →
      (t.link y.link).outstanding = before ++ { e with st := .answered } :: after)) ∧
  (y.wanted = false → (t.linkA, t.linkB) = (s.linkA, s.linkB)) ∧
  s.GoesOn t rest ∧ t.bus.pos = s.bus.pos ∧
  t = { s with now := t.now, bus := t.bus, linkA := t.linkA, linkB := t.linkB, cond := t.cond }

theorem State.relay_accepted {c : Instr} {s : State} {l : Link} {q : Request} {y : RelayEntry}
    (ht : s.takesUp c = true) (hc : c.asRequest = some (l, q))
    (hact : ∀ x, c.act x = x.relay y) (h0 : y.address ≠ 0) (h1 : y.address ≤ 31) (h2 : y.register ≤ 15)
    (hy : y.underWay = false) (hq : s.bus.queue.length < 4) : s.RelayAccepted c l y := by
  obtain ⟨hp, h⟩ := (State.takesUp_iff hc).mp ht
  have hx := State.exec_chosen hc hp h
  rw [hact, State.relay_ok (s := { s with exe := s.exe.serve l }) h0 h1 h2 hq] at hx
  generalize hv : ({ s with
    bus := { s.bus with queue := s.bus.queue ++ [y] }, exe := s.exe.serve l } : State) = v at hx
  have hout (u : State) (hu : u.linkA = s.linkA ∧ u.linkB = s.linkB) :
      ((Acted.finish l q.tag q.code (.relayed u)).settle.link l).output = (s.link l).output := by
    rw [State.link_settle, ← State.link_congr hu.1 hu.2]
    simp [Acted.finish, LinkState.mark]
  refine ⟨fun hbusy => ?_, fun hidle hempty => ?_⟩
  · rw [State.kickBus_busy (by simpa [← hv] using hbusy)] at hx
    refine ⟨_, hx, by simp [Acted.finish, ← hv], hout v (by simp [← hv]), ?_⟩
    apply State.ext <;> simp [Acted.finish, ← hv]
  · rw [State.kickBus_idle (by simpa [← hv] using hidle),
      State.chooseNext_one (y := y) (by simp [← hv, hempty]) hy] at hx
    refine ⟨_, hx, by simp [Acted.finish, ← hv, State.firstAttempt], hout _ (by simp [← hv]), ?_⟩
    apply State.ext <;> simp [Acted.finish, ← hv]

theorem State.txnEnds_relayEnded {s e : State} {x : Txn} {y : RelayEntry} {rest : List RelayEntry} {answer : Option (BitVec 16)}
    (hscan : x.scan = false) (hbus : e.bus = s.bus)
    (hframe : e = { s with now := e.now, cond := e.cond })
    (hq : s.bus.queue = y :: rest) (hy : y.underWay = true) (hrest : ∀ z ∈ rest, z.underWay = false) {r : Result}
    {data : List Octet} (hdata : ∀ u : State, y.wanted = true → u.relayResponse y x.attempts answer =
      u.respond y.link .inRelay y.tag y.code r data) :
    s.RelayEnded (e.txnEnds x answer).settle y rest r data := by
  generalize he' : ({ e with bus := { e.bus with txn := none } } : State) = e'
  have hbus' : e'.bus = { s.bus with txn := none } := by rw [← he', hbus]
  have hq' : e'.bus.queue = y :: rest := by rw [hbus', hq]
  have hlinks (l : Link) : e'.link l = s.link l :=
    State.link_congr (by rw [← he', hframe]) (by rw [← he', hframe]) l
  have hend : e.txnEnds x answer = (e'.relayEnds x answer).chooseNext := by
    rw [State.txnEnds_relay hscan, he']
  obtain ⟨-, -, -, hpos⟩ := (e'.relayEnds x answer).chooseNext_bus
  have hub := State.relayEnds_bus (x := x) hq' hy hrest answer
  have hul := State.relayEnds_link (x := x) hq' hy hrest answer
  generalize hu : e'.relayEnds x answer = u at hend hpos hub hul
  generalize ht : (e.txnEnds x answer).settle = t
  have htb : t.bus = u.chooseNext.bus := by rw [← ht, hend]; simp
  have htl (l : Link) : t.link l = (e'.relayLeft y rest x.attempts answer).link l := by
    rw [← hul, ← ht, State.link_settle, hend]
    exact State.link_congr (by simp) (by simp) l
  have hleft (l : Link) : ({ e' with bus := { e'.bus with queue := rest } } : State).link l = s.link l := by
    rw [← hlinks]
    cases l <;> rfl
  refine ⟨fun hw => ?_, fun hw => ?_, ?_, ?_, ?_⟩
  · simp only [htl, State.relayLeft, hdata _ hw]
    obtain ⟨hout, hmark, hother⟩ := State.respond_link { e' with bus := { e'.bus with queue := rest } }
      y.link .inRelay y.tag y.code r data
    rw [hout, hother, hleft, hleft]
    refine ⟨by simp [RelayEntry.code], rfl, fun before z after hz hm hb => ?_⟩
    rw [hmark, hleft]
    exact LinkState.mark_answered hz hm hb
  · have hsame (l : Link) : t.link l = s.link l := by
      rw [htl, State.relayLeft, State.relayResponse_unwanted hw, hleft]
    exact Prod.ext (hsame .a) (hsame .b)
  · have hqueue : u.bus.queue = rest := by rw [hub]
    rw [← hqueue]
    refine State.goesOn_chooseNext ?_ ?_ ?_ ?_ (by rwa [hqueue]) htb
    · rw [← hu, ← he', hframe]; simp
    · rw [hub, hbus']
    · rw [hub, hbus']
    · rw [hub, hbus']
  · rw [htb, hpos, hub, hbus']
  · rw [← ht, hend, ← hu, ← he']
    apply State.ext <;> rw [hframe] <;> simp
/-- What the end of a relay leaves of the table and of MODULE_CHANGE. -/
theorem State.txnEnds_relay_table {e : State} {x : Txn} {y : RelayEntry} {rest : List RelayEntry}
    {answer : Option (BitVec 16)} (hscan : x.scan = false) (hq : e.bus.queue = y :: rest)
    (hy : y.underWay = true) (hrest : ∀ z ∈ rest, z.underWay = false) :
    ∃ u : State, u.bus = { e.bus with queue := rest, txn := none } ∧ u.cond = e.cond ∧
      (e.txnEnds x answer).settle.bus.table =
        (if x.value.isNone && x.register = 0 && answer.isSome then u.recordOutcome x.address answer
          else u).bus.table ∧
      (e.txnEnds x answer).settle.views 21 =
        (if x.value.isNone && x.register = 0 && answer.isSome then u.recordOutcome x.address answer
          else u).views 21 ∧
      (e.txnEnds x answer).settle.cond.live = e.cond.live := by
  generalize he' : ({ e with bus := { e.bus with txn := none } } : State) = e'
  have hq' : e'.bus.queue = y :: rest := by rw [← he', ← hq]
  have hends := State.relayEnds_eq (x := x) hq' hy hrest answer
  refine ⟨e'.relayLeft y rest x.attempts answer, by rw [State.relayLeft_bus, ← he'], ?_, ?_⟩
  · rw [← he']
    simp [State.relayLeft]
  have hcond : (e'.relayLeft y rest x.attempts answer).cond.live = e.cond.live := by
    rw [← he']
    simp [State.relayLeft]
  rw [State.txnEnds_relay hscan, he', hends]
  refine ⟨?_, ?_, ?_⟩
  · exact (State.chooseNext_bus _).1
  · rw [State.settle_views _ (by decide)]
    exact State.views_congr (by simp) 21
  · rw [← hcond]
    refine (congrArg Conditions.live (State.chooseNext_frame _).2.2.2.2.2.2.2.2.2.2.2.2.2.2.2.1).trans ?_
    split
    · exact State.recordOutcome_live _ _ _
    · rfl

end Sys2Proof.Machine

namespace Sys2Proof

open Sys2Proof.Machine

/-- Settles O55: the two requests enter the queue alike, and a relay ends alike by an answer and by
silence. -/
theorem relayIsQueuedAndAnswered : Obligations.RelayIsQueuedAndAnswered := by
  unfold Obligations.RelayIsQueuedAndAnswered
  refine ⟨fun l tag a r s ht => ?read, fun l tag a r v s ht => ?write,
    fun dt w s x e y rest hp hx hph hle hs hq hy hrest hv => ?answered,
    fun s x e y rest hp hx hph hr hs hq hy hrest => ?silent⟩
  case read =>
    have hzero (h : a ≠ 0) : a.toNat ≠ 0 := fun h0 => h (octet_eq_zero_iff.mpr h0)
    refine ⟨fun h => ?_, fun h0 h1 h2 hq => ?_, fun h0 h1 h2 hq => ?_⟩
    · exact State.answers_reading ht rfl (fun _ => rfl)
        (State.relay_badArgument (h.imp_left octet_eq_zero_iff.mp))
    · exact State.answers_reading ht rfl (fun _ => rfl) (State.relay_busy (hzero h0) h1 h2 hq)
    · exact State.relay_accepted ht rfl (fun _ => rfl) (hzero h0) h1 h2 rfl hq
  case write =>
    have hzero (h : a ≠ 0) : a.toNat ≠ 0 := fun h0 => h (octet_eq_zero_iff.mpr h0)
    refine ⟨fun h => ?_, fun h0 h1 h2 hq => ?_, fun h0 h1 h2 hq => ?_⟩
    · exact State.answers_reading ht rfl (fun _ => rfl)
        (State.relay_badArgument (h.imp_left octet_eq_zero_iff.mp))
    · exact State.answers_reading ht rfl (fun _ => rfl) (State.relay_busy (hzero h0) h1 h2 hq)
    · exact State.relay_accepted ht rfl (fun _ => rfl) (hzero h0) h1 h2 rfl hq
  case answered =>
    have hopen : x.phase.openAt (s.now + dt) = true := by simpa [hph, AttemptPhase.openAt] using hle
    have hexec : exec (.moduleAnswer w dt) s = .next ((s.wait dt).txnEnds x (some w)).settle := by
      simp [exec, execModuleAnswer, State.wait, hp, hx, hopen]
    obtain ⟨u, hub, huc, htable, hviews, -⟩ :=
      State.txnEnds_relay_table (e := s.wait dt) (answer := some w) hs hq hy hrest
    have hu21 : u.views 21 = s.views 21 := State.views_congr huc 21
    have hrec (c : Nat) : u.bus.record c = s.bus.record c := Bus.record_congr (by rw [hub]; rfl) c
    have hutable : u.bus.table = s.bus.table := by rw [hub]; rfl
    refine ⟨_, hexec, by simp [State.wait], State.txnEnds_relayEnded (s := s) (e := s.wait dt) (answer := some w) hs rfl
      rfl hq hy hrest (fun u hw => State.relayResponse_answered hw _ _), fun hheard h1 h31 => ?_, fun hheard => ?_⟩
    · obtain ⟨hval, hreg, hf, hl⟩ := hheard
      rw [if_pos (by simp [hval, hreg])] at htable hviews
      obtain ⟨hsame, hother, hv⟩ := State.recordOutcome_reads (s := u) h1 h31 (by rw [hub]; exact hf)
        (by rw [hub]; exact hl) (some w)
      rw [hrec] at hv
      refine ⟨(Bus.record_congr htable _).trans hsame, fun c hc hc' hne => ?_, fun hne => ?_⟩
      · rw [Bus.record_congr htable, hother c hc hc' hne, hrec]
      · exact State.views_of_raised ((hviews.trans hv).trans (if_pos hne))
    · have hnone : (if x.value.isNone && x.register = 0 && (some w).isSome then
          u.recordOutcome x.address (some w) else u) = u := by
        split
        case isFalse => rfl
        case isTrue hc =>
          refine State.recordOutcome_outside (fun hin => hheard ?_) _
          rw [hub] at hin
          simpa [and_assoc] using And.intro hc hin
      rw [hnone] at htable hviews
      exact ⟨htable.trans hutable, Prod.mk.inj (hviews.trans hu21)⟩
  case silent =>
    have hexec : exec .answerWindowExpiry s =
        .next (((s.waitUntil e).count .ampNoAnswer 1).txnEnds x none).settle := by
      simp [exec, execAnswerWindowExpiry, hp, hx, hph, State.noAnswer, Nat.not_le.mpr hr]
    obtain ⟨u, hub, -, htable, -, hlive⟩ :=
      State.txnEnds_relay_table (e := (s.waitUntil e).count .ampNoAnswer 1) (answer := none) hs hq hy hrest
    refine ⟨_, hexec, by simp [State.waitUntil], State.txnEnds_relayEnded (s := s)
      (e := (s.waitUntil e).count .ampNoAnswer 1) (answer := none) hs rfl rfl hq hy hrest (fun u hw => State.relayResponse_silent hw _), ?_, ?_⟩
    · rw [htable, if_neg (by simp), hub]
      rfl
    · rw [hlive]
      exact State.count_live _ .ampNoAnswer 1

end Sys2Proof

/-! A change of mode and KILL_CARRIER (R18, R34, R123, R126, R130, R131, R170, R184). -/

namespace Sys2Proof.Machine

/-! ## A change of mode -/

theorem State.changeMode_same {s : State} {m : Mode} (h : s.key.mode = m) : s.changeMode m = s := if_pos h

section
variable {s : State} {m : Mode}

theorem State.changeMode_key (h : s.key.mode ≠ m) : (s.changeMode m).key = s.key.enter m := by
  unfold State.changeMode
  rw [if_neg h]
  cases m <;> rfl

theorem State.changeMode_mon (h : s.key.mode ≠ m) :
    (s.changeMode m).mon = s.mon.modeChange s.params s.now s.key.mode m := by
  unfold State.changeMode
  rw [if_neg h]
  cases m <;> rfl

theorem State.changeMode_views (h : s.key.mode ≠ m) : (s.changeMode m).views 17 = (true, true) := by
  unfold State.changeMode
  rw [if_neg h]
  exact State.raise_views_self _ .modeChange

/-- Entering TIME_CODE abandons a waiting phase step, and a change does nothing else to the timebase. -/
theorem State.changeMode_step (h : s.key.mode ≠ m) : (s.changeMode m).tb =
    { s.tb with stepWaiting := s.tb.stepWaiting && decide (m ≠ .timeCode) } := by
  unfold State.changeMode
  rw [if_neg h]
  cases m <;> simp [State.abandonStep, State.raise]

end

/-! ## The monitor at a change of mode (R184) -/

theorem Monitor.modeChange_det (x : Monitor) (p : Params) (now : Nat) (old new : Mode) :
    (x.modeChange p now old new).det = x.det.makeStale := by
  unfold Monitor.modeChange
  repeat' split
  all_goals rfl

theorem Monitor.modeChange_keeps (x : Monitor) (p : Params) (now : Nat) (old new : Mode) :
    let y := x.modeChange p now old new
    (y.lastSymbol, y.lastDelay, y.lastFrame, y.rxText, y.rxCycles) =
      (x.lastSymbol, x.lastDelay, x.lastFrame, x.rxText, x.rxCycles) ∧
    (y.gen, y.correct, y.miss) = (x.gen, x.correct, x.miss) := by
  unfold Monitor.modeChange
  repeat' split
  all_goals exact ⟨rfl, rfl⟩

theorem Monitor.modeChange_analyzer (x : Monitor) (p : Params) (now : Nat) (old new : Mode) :
    let y := x.modeChange p now old new
    (y.an, y.hunt) = if old = .testPattern ∨ new = .testPattern then (.hunting, []) else (x.an, x.hunt) := by
  unfold Monitor.modeChange
  cases old <;> cases new <;> cases p.monitorEnable <;> rfl

theorem Monitor.modeChange_leaves (x : Monitor) (p : Params) (now : Nat) {new : Mode} (h : new ≠ .timeCode) :
    let y := x.modeChange p now .timeCode new
    (y.coll, y.timer, y.bad, y.good, y.frameLost, y.inject) = (none, none, 0, 0, false, false) ∧
      (y.collecting, y.octets, y.heldHigh) = (false, [], none) := by
  cases new with
  | timeCode => exact absurd rfl h
  | offAir => exact ⟨rfl, rfl⟩
  | carrierOnly => exact ⟨rfl, rfl⟩
  | testPattern => exact ⟨rfl, rfl⟩

theorem Monitor.modeChange_stays (x : Monitor) (p : Params) (now : Nat) {old : Mode} (new : Mode)
    (h : old ≠ .timeCode) :
    let y := x.modeChange p now old new
    (y.coll, y.bad, y.good, y.frameLost, y.inject) = (x.coll, x.bad, x.good, x.frameLost, x.inject) ∧
      (y.collecting, y.octets, y.heldHigh) = (x.collecting, x.octets, x.heldHigh) ∧
      y.timer = if new = .timeCode ∧ p.monitorEnable = true then some (now + 620000000) else x.timer := by
  unfold Monitor.modeChange
  rw [if_neg h]
  cases hp : p.monitorEnable <;> cases new <;> cases old <;> exact ⟨rfl, rfl, rfl⟩

/-! ## The carrier is cut (R126) -/

theorem State.kill_key (s : State) : s.kill.key = { s.key with
    mode := .offAir, pendingMode := none, offReq := none, maint := none, deferred := false
    current := none, mark := [], history := if s.key.mode = .timeCode then [] else s.key.history } := by
  by_cases h : s.key.mode = .offAir
  · simp [State.kill, State.changeMode_same h, Keyer.dropOffReq, h]
  · simp [State.kill, State.changeMode_key h, Keyer.dropOffReq, Keyer.enter]

theorem State.kill_rest (s : State) : s.kill.mon = (s.changeMode .offAir).mon ∧
    s.kill.cond = (s.changeMode .offAir).cond := ⟨rfl, rfl⟩

theorem State.kill_exe (s : State) (x : Executor) : State.kill { s with exe := x } = { s.kill with exe := x } := by
  unfold State.kill State.changeMode
  split <;> rfl

theorem settingOf_none {o : Octet} (h : 1 < o.toNat) : settingOf o = none := by
  obtain ⟨n, hn⟩ : ∃ n, o.toNat = n + 2 := ⟨o.toNat - 2, by omega⟩
  simp [settingOf, hn]

theorem settingOf_some {o : Octet} (h : o.toNat ≤ 1) : settingOf o = some (decide (o = 1)) := by
  obtain rfl | rfl : o = 0 ∨ o = 1 := by
    rcases Nat.le_one_iff_eq_zero_or_eq_one.mp h with h0 | h1
    · exact .inl (BitVec.eq_of_toNat_eq h0)
    · exact .inr (BitVec.eq_of_toNat_eq h1)
  · rfl
  · rfl

theorem actSetHold_badArgument {o : Octet} {s : State} (h : 1 < o.toNat) :
    actSetHold o s = .plain .badArgument s := by
  unfold actSetHold
  rw [settingOf_none h]

theorem actSetHold_ok {o : Octet} {s : State} (h : o.toNat ≤ 1) :
    actSetHold o s = .plain .ok { s with key := { s.key with hold := decide (o = 1) } } := by
  unfold actSetHold
  rw [settingOf_some h]

end Sys2Proof.Machine

namespace Sys2Proof

open Sys2Proof.Machine

/-- Settles O36: SET_HOLD, KILL_CARRIER by the mode, and a change of mode by what it leaves and enters. -/
theorem killCarrierCutsAtOnce : Obligations.KillCarrierCutsAtOnce := by
  refine ⟨fun l tag o s ht => ⟨fun h => ?_, fun h => ?_⟩, fun l tag s ht => ?kill, fun s m hm => ?change⟩
  · exact State.answers_reading ht rfl (fun _ => rfl) (actSetHold_badArgument h)
  · exact State.answers_of ht rfl (fun _ => rfl) (actSetHold_ok h)
  case kill =>
    have hoff : s.kill.key.mode = .offAir := by rw [State.kill_key]
    have hcut : s.kill.carrierEnable = false := by simp [State.carrierEnable, Keyer.onAir, hoff]
    refine ⟨s.kill, State.answersWith_of ht rfl (fun _ => rfl) (congrArg (Acted.plain .ok) (s.kill_exe _)),
      hcut, by simp [State.amplitude, hcut], s.kill_key, fun h => ?_, fun h => ?_, ?_⟩
    · obtain ⟨ha, hb⟩ := State.views_of_raised (State.changeMode_views h)
      exact ⟨ha, hb, rfl⟩
    · obtain ⟨hmon, hcond⟩ := s.kill_rest
      rw [hmon, hcond, State.changeMode_same h]
      exact ⟨rfl, rfl⟩
    · have htb : s.kill.tb = s.tb := by
        by_cases h : s.key.mode = .offAir
        · exact (congrArg State.tb (State.changeMode_same h) : (s.changeMode .offAir).tb = s.tb)
        · refine (State.changeMode_step h).trans ?_
          simp
      apply State.ext
      case tb => exact htb
      all_goals simp [State.kill]
  case change =>
    intro t
    obtain ⟨ha, hb⟩ := State.views_of_raised (State.changeMode_views hm)
    have hmon : t.mon = s.mon.modeChange s.params s.now s.key.mode m := State.changeMode_mon hm
    obtain ⟨hkept, hgen⟩ := s.mon.modeChange_keeps s.params s.now s.key.mode m
    refine ⟨State.changeMode_key hm, ha, hb, ?_, ?_, fun htc => ?_, fun htc => ?_, ?_, ?_, ?_⟩
    · apply State.ext
      case tb => exact State.changeMode_step hm
      all_goals simp [t]
    · rw [hmon, Monitor.modeChange_det]
      rfl
    · rw [hmon, htc]
      exact Monitor.modeChange_leaves _ _ _ (by rw [← htc]; exact hm.symm)
    · rw [hmon]
      exact Monitor.modeChange_stays _ _ _ m htc
    · rw [hmon, Monitor.modeChange_analyzer]
    · rw [hmon, hkept]
    · rw [hmon, hgen]

end Sys2Proof

/-! The monitor: verdicts and the loss of frame (R173, R176, R178), and the received notice (R105, R179,
R180). -/

namespace Sys2Proof.Machine

/-! ## The runs (R178) -/

/-- What a bad frame makes of the runs and of FRAME_LOST. -/
theorem Monitor.lossOfFrame_bad (x : Monitor) (p : Params) :
    (x.frameLost = false → x.bad + 1 < p.lofSet →
      x.lossOfFrame p false = { x with bad := x.bad + 1 }) ∧
    (x.frameLost = false → p.lofSet ≤ x.bad + 1 →
      x.lossOfFrame p false = { x with frameLost := true, bad := 0, good := 0 }) ∧
    (x.frameLost = true → x.lossOfFrame p false = { x with good := 0 }) := by
  refine ⟨fun h hlt => ?_, fun h hle => ?_, fun h => ?_⟩
  · simp [Monitor.lossOfFrame, h, Nat.not_le.mpr hlt]
  · simp [Monitor.lossOfFrame, h, hle]
  · simp [Monitor.lossOfFrame, h]

/-- What a good frame makes of them. -/
theorem Monitor.lossOfFrame_good (x : Monitor) (p : Params) :
    (x.frameLost = false → x.lossOfFrame p true = { x with bad := 0 }) ∧
    (x.frameLost = true → p.lofClear ≤ x.good + 1 →
      x.lossOfFrame p true = { x with frameLost := false, bad := 0, good := 0 }) ∧
    (x.frameLost = true → x.good + 1 < p.lofClear →
      x.lossOfFrame p true = { x with good := x.good + 1 }) := by
  refine ⟨fun h => ?_, fun h hle => ?_, fun h hlt => ?_⟩
  · simp [Monitor.lossOfFrame, h]
  · simp [Monitor.lossOfFrame, h, hle]
  · simp [Monitor.lossOfFrame, h, Nat.not_le.mpr hlt]

/-- A verdict touches the two runs and FRAME_LOST alone. -/
theorem Monitor.lossOfFrame_keeps (x : Monitor) (p : Params) (matched : Bool) :
    x.lossOfFrame p matched = { x with
      frameLost := (x.lossOfFrame p matched).frameLost, bad := (x.lossOfFrame p matched).bad
      good := (x.lossOfFrame p matched).good } := by
  unfold Monitor.lossOfFrame
  repeat' split
  all_goals rfl

/-! ## A verdict (R176) -/

theorem State.verdict_mon (s : State) (f : LastFrame) : (s.verdict f).mon =
    Monitor.lossOfFrame { s.mon with lastFrame := some f } s.params f.matchedVerdict := rfl

theorem State.verdict_cond (s : State) (f : LastFrame) : (s.verdict f).cond =
    (s.count (if f.matchedVerdict then .monFramesGood else .monFramesBad) 1).cond := rfl

theorem LastFrame.matchedVerdict_iff (f : LastFrame) : f.matchedVerdict = true ↔ f.reason = none := by
  simp [LastFrame.matchedVerdict]

theorem LastFrame.not_matchedVerdict {f : LastFrame} {r : BadReason} (h : f.reason = some r) :
    f.matchedVerdict = false := by
  simp [LastFrame.matchedVerdict, h]

/-! ## The frame timer (R173) -/

/-- The record of a frame that did not come in time. -/
def LastFrame.timedOut (start : Instant) : LastFrame where
  reason := some .timeout
  syms := []
  excess := 0
  start := start
  matched := none
  differing := 0
  injected := false

theorem State.exec_frameTimerExpiry {s : State} {at_ : Nat} (hp : s.por = false) (ht : s.mon.timer = some at_) :
    exec .frameTimerExpiry s = .next (s.frameTimeout at_).settle := by
  simp [exec, execFrameTimerExpiry, hp, ht]

theorem State.frameTimeout_mon (s : State) (at_ : Nat) : (s.frameTimeout at_).mon =
    { (Monitor.lossOfFrame { s.mon with lastFrame := some (.timedOut (s.waitUntil at_).instant) }
        s.params false).loseNibble with
      coll := none, timer := some (max s.now at_ + 620000000) } := rfl

theorem State.frameTimeout_live (s : State) (at_ : Nat) :
    (s.frameTimeout at_).settle.cond.live = (s.count .monFramesBad 1).cond.live := rfl

theorem State.settle_frameLost (s : State) : s.settle.cond.active.getLsbD 10 = s.mon.frameLost := by
  rw [State.settle_active, State.activeNow_getLsbD]
  rfl

theorem actInjectMonitorError_notReady {s : State}
    (h : s.key.mode ≠ .timeCode ∨ s.params.monitorEnable = false) :
    actInjectMonitorError s = .plain .notReady s := if_pos (by simpa using h)

theorem actInjectMonitorError_ok {s : State} (h : s.key.mode = .timeCode) (h' : s.params.monitorEnable = true) :
    actInjectMonitorError s = .plain .ok { s with mon := { s.mon with inject := true } } :=
  if_neg (by simp [h, h'])

/-! ## The received notice (R179) -/

/-- An octet of the notice channel, heard as its high and its low nibble. -/
def Monitor.hear (x : Monitor) (o : Octet) : Monitor :=
  (x.nibble false (o.extractLsb' 4 4)).nibble true (o.extractLsb' 0 4)

theorem nibbles_append (o : Octet) : o.extractLsb' 4 4 ++ o.extractLsb' 0 4 = o := by
  revert o
  decide

/-- With no nibble held, an octet is heard whole. -/
theorem Monitor.hear_fresh {x : Monitor} (h : x.heldHigh = none) (o : Octet) :
    x.hear o = x.noticeOctet o := by
  have hx : { x with heldHigh := none } = x := by rw [← h]
  simp only [Monitor.hear, Monitor.nibble, h, nibbles_append]
  rw [hx]

/-- With a high nibble held, the assembly is lost before the octet is heard. -/
theorem Monitor.hear_held {x : Monitor} {v : BitVec 4} (h : x.heldHigh = some v) (o : Octet) :
    x.hear o = { x.stopCollecting with heldHigh := none }.noticeOctet o := by
  simp only [Monitor.hear, Monitor.nibble, h, nibbles_append]

/-- The notice assembly is in progress with the octets `xs`, after `n` cycles. -/
structure Monitor.Assembling (x : Monitor) (xs : List Octet) (n : Nat) : Prop where
  collecting : x.collecting = true
  octets : x.octets = xs
  held : x.heldHigh = none
  cycles : x.rxCycles = n

/-- A start octet begins an assembly, whatever came before. -/
theorem Monitor.hear_start (x : Monitor) :
    ∃ n, (x.hear 0x01).Assembling [] n ∧ (x.collecting = false → n = x.rxCycles) := by
  cases hx : x.heldHigh with
  | none =>
    rw [Monitor.hear_fresh hx]
    cases hc : x.collecting with
    | true => exact ⟨_, ⟨by simp [Monitor.noticeOctet], by simp [Monitor.noticeOctet],
        by simp [Monitor.noticeOctet, hc, hx], rfl⟩, fun h => by cases h⟩
    | false => exact ⟨_, ⟨by simp [Monitor.noticeOctet], by simp [Monitor.noticeOctet],
        by simp [Monitor.noticeOctet, hc, hx], rfl⟩, fun _ => by simp [Monitor.noticeOctet, hc]⟩
  | some v =>
    rw [Monitor.hear_held hx]
    exact ⟨_, ⟨by simp [Monitor.noticeOctet], by simp [Monitor.noticeOctet],
      by simp [Monitor.noticeOctet, Monitor.stopCollecting], rfl⟩,
      fun _ => by simp [Monitor.noticeOctet, Monitor.stopCollecting]⟩

/-- An octet of a text is added to the assembly. -/
theorem Monitor.hear_octet {x : Monitor} {xs : List Octet} {n : Nat} (h : x.Assembling xs n)
    (hlen : xs.length < 32) {o : Octet} (h1 : 0x20 ≤ o.toNat) (h2 : o.toNat ≤ 0x7E) :
    (x.hear o).Assembling (xs ++ [o]) n := by
  have hne : o ≠ 0x01 := by
    rintro rfl
    exact absurd h1 (by decide)
  have hadd : x.hear o = { x with octets := x.octets ++ [o] } := by
    rw [Monitor.hear_fresh h.held, Monitor.noticeOctet, if_neg hne,
      if_pos (by simp [h1, h2, h.collecting, h.octets, hlen])]
  rw [hadd]
  exact ⟨h.collecting, by rw [h.octets], h.held, h.cycles⟩

theorem Monitor.hear_text {x : Monitor} {xs text : List Octet} {n : Nat} (h : x.Assembling xs n)
    (hlen : xs.length + text.length ≤ 32) (htext : ∀ o ∈ text, 0x20 ≤ o.toNat ∧ o.toNat ≤ 0x7E) :
    (text.foldl Monitor.hear x).Assembling (xs ++ text) n := by
  induction text generalizing x xs with
  | nil => simpa using h
  | cons o os ih =>
    obtain ⟨h1, h2⟩ := htext o (by simp)
    simp only [List.length_cons] at hlen
    have hnext := ih (Monitor.hear_octet h (by omega) h1 h2) (by simp; omega)
      fun p hp => htext p (by simp [hp])
    simpa using hnext

/-- The next start octet ends the cycle: the text is received. -/
theorem Monitor.hear_end {x : Monitor} {xs : List Octet} {n : Nat} (h : x.Assembling xs n) :
    (x.hear 0x01).rxText = xs ∧ (x.hear 0x01).collecting = true ∧ (x.hear 0x01).octets = [] ∧
      (x.hear 0x01).heldHigh = none ∧ (x.hear 0x01).rxCycles = (n + 1) % 65536 := by
  rw [Monitor.hear_fresh h.held, Monitor.noticeOctet, if_pos rfl, if_pos h.collecting]
  exact ⟨h.octets, rfl, rfl, h.held, by rw [← h.cycles]⟩

end Sys2Proof.Machine

namespace Sys2Proof

open Sys2Proof.Machine

/-- Settles O50: the verdict of a frame that did not come, and INJECT_MONITOR_ERROR by mode and enable. -/
theorem frameTimeoutIsABadFrame : Obligations.FrameTimeoutIsABadFrame := by
  refine ⟨fun s at_ hp ht => ?_, fun l tag s ht => ⟨fun h => ?_, fun h h' => ?_⟩⟩
  · have hmon := s.frameTimeout_mon at_
    obtain ⟨hrun, hlost, hstays⟩ := Monitor.lossOfFrame_bad
      { s.mon with lastFrame := some (.timedOut (s.waitUntil at_).instant) } s.params
    have hkeeps := Monitor.lossOfFrame_keeps
      { s.mon with lastFrame := some (.timedOut (s.waitUntil at_).instant) } s.params false
    have hend : (s.frameTimeout at_).settle.mon = (s.frameTimeout at_).mon := by simp
    refine ⟨_, State.exec_frameTimerExpiry hp ht, ?_, ?_, ?_, ?_, ?_, ?_, fun h hlt => ?_, fun h hle => ?_,
      fun h => ?_, ?_⟩
    · simp [State.frameTimeout, State.waitUntil]
    · rw [hend, hmon]
    · rw [hend, hmon]
    · rw [hend, hmon]
      rfl
    · rw [hend, hmon, hkeeps]
      exact ⟨_, rfl, rfl, rfl, rfl⟩
    · rw [State.frameTimeout_live]
      exact State.count_live _ .monFramesBad 1
    · rw [hend, hmon, hrun h hlt]
      exact ⟨h, rfl⟩
    · rw [State.settle_frameLost, hend, hmon, hlost h hle]
      exact ⟨rfl, rfl, rfl⟩
    · rw [hend, hmon, hstays h]
      exact ⟨h, rfl⟩
    · apply State.ext <;> simp [State.frameTimeout, State.waitUntil]
  · exact State.answers_reading ht rfl (fun _ => rfl) (actInjectMonitorError_notReady h)
  · exact State.answers_of ht rfl (fun _ => rfl)
      (actInjectMonitorError_ok (s := { s with exe := s.exe.serve l }) h h')

/-- Settles O52: the start octet, the text and the next start octet, one after another. -/
theorem noticeCycleIsReassembled : Obligations.NoticeCycleIsReassembled := by
  intro m text hlen htext hear t
  have ht : t = (text.foldl Monitor.hear (m.hear 0x01)).hear 0x01 := by
    simp only [t, List.foldl_cons, List.foldl_append, List.foldl_nil]
    rfl
  obtain ⟨n, hstart, hn⟩ := m.hear_start
  obtain ⟨htxt, hcol, hoct, hheld, hcyc⟩ :=
    Monitor.hear_end (Monitor.hear_text hstart (by simpa using hlen) htext)
  rw [ht]
  exact ⟨htxt, hcol, hoct, hheld, fun h => by rw [hcyc, hn h]⟩

end Sys2Proof

/-! The close of a mark (R168, R170), and the pattern analyzer (R17, R181, R182). -/

namespace Sys2Proof.Machine

/-! ## A closed mark goes on by the keyer's mode (R168, R169, R170) -/

section
variable {s : State} {m : OpenMark}

/-- The state in which a mark has closed as `x` with the detector `d`, at the instant `at_` or later. -/
def State.markClosed (s : State) (at_ : Nat) (d : Detector) (x : Symbol) : State :=
  { s with now := max s.now at_, mon := { s.mon with det := d, lastSymbol := some x } }

theorem State.exec_markQuietClose (hp : s.por = false) (hl : s.monIn = false) (hd : s.mon.det = .mark m) :
    exec .markQuietClose s = .next (s.quietClose m).settle := by
  simp [exec, execMarkQuietClose, hp, hl, hd]

theorem State.exec_markLongClose (hp : s.por = false) (hd : s.mon.det = .mark m) :
    exec .markLongClose s = .next (s.longClose m).settle := by
  simp [exec, execMarkLongClose, hp, hd]

/-- A stale mark, and any mark in OFF_AIR and CARRIER_ONLY, goes no further. -/
theorem State.handOn_ends (x : Symbol)
    (h : m.stale = true ∨ s.key.mode = .offAir ∨ s.key.mode = .carrierOnly) :
    s.handOn m x = { s with mon := { s.mon with lastSymbol := some x } } := by
  unfold State.handOn
  rcases h with h | h | h
  · exact if_pos h
  · cases m.stale <;> simp [h]
  · cases m.stale <;> simp [h]

theorem State.handOn_timeCode (x : Symbol) (h : m.stale = false) (hk : s.key.mode = .timeCode) :
    s.handOn m x = State.assemble { s with mon := { s.mon with lastSymbol := some x } } x m.start := by
  simp [State.handOn, h, hk]

theorem State.handOn_testPattern (x : Symbol) (h : m.stale = false) (hk : s.key.mode = .testPattern) :
    s.handOn m x = State.analyze { s with mon := { s.mon with lastSymbol := some x } } x := by
  simp [State.handOn, h, hk]

theorem State.quietClose_ends
    (h : m.stale = true ∨ s.key.mode = .offAir ∨ s.key.mode = .carrierOnly) :
    s.quietClose m = s.markClosed (m.since + 1500000) .idle (classify m.widths) := State.handOn_ends _ h

theorem State.longClose_ends
    (h : m.stale = true ∨ s.key.mode = .offAir ∨ s.key.mode = .carrierOnly) :
    s.longClose m = s.markClosed (m.start.at_ + 10000000) (detectorAtStart s.monIn) .invalid :=
  State.handOn_ends _ h

theorem State.quietClose_timeCode (h : m.stale = false) (hk : s.key.mode = .timeCode) : s.quietClose m =
    (s.markClosed (m.since + 1500000) .idle (classify m.widths)).assemble (classify m.widths) m.start :=
  State.handOn_timeCode _ h hk

theorem State.longClose_timeCode (h : m.stale = false) (hk : s.key.mode = .timeCode) : s.longClose m =
    (s.markClosed (m.start.at_ + 10000000) (detectorAtStart s.monIn) .invalid).assemble .invalid m.start :=
  State.handOn_timeCode _ h hk

theorem State.quietClose_testPattern (h : m.stale = false) (hk : s.key.mode = .testPattern) :
    s.quietClose m =
      (s.markClosed (m.since + 1500000) .idle (classify m.widths)).analyze (classify m.widths) :=
  State.handOn_testPattern _ h hk

theorem State.longClose_testPattern (h : m.stale = false) (hk : s.key.mode = .testPattern) :
    s.longClose m =
      (s.markClosed (m.start.at_ + 10000000) (detectorAtStart s.monIn) .invalid).analyze .invalid :=
  State.handOn_testPattern _ h hk

theorem State.settle_mon_live (s : State) : s.settle.mon = s.mon ∧ s.settle.cond.live = s.cond.live :=
  ⟨rfl, rfl⟩

end

/-! ## The generator's stages -/

/-- A step moves each stage into the next. -/
theorem genStep_getLsbD (g : BitVec 15) {j : Nat} (h : 1 ≤ j) (h' : j < 15) :
    (genStep g).getLsbD j = g.getLsbD (j - 1) := by
  have hbit (b : Bool) : (BitVec.ofNat 15 b.toNat).getLsbD j = false := by
    have hlt : b.toNat < 2 ^ j := lt_of_le_of_lt (Bool.toNat_le b) (Nat.one_lt_two_pow (by omega))
    rw [BitVec.getLsbD_ofNat, Nat.testBit_lt_two_pow hlt, Bool.and_false]
  simp only [genStep, BitVec.getLsbD_or, BitVec.getLsbD_shiftLeft, hbit, Bool.or_false, h', decide_true,
    Bool.true_and]
  simp [show ¬j < 1 by omega]

theorem genStep_iterate_getLsbD (g : BitVec 15) {k j : Nat} (h : k ≤ j) (h' : j < 15) :
    (genStep^[k] g).getLsbD j = g.getLsbD (j - k) := by
  induction k generalizing j with
  | zero => rfl
  | succ k ih =>
    rw [Function.iterate_succ_apply', genStep_getLsbD _ (by omega) h', ih (by omega) (by omega)]
    congr 1
    omega

/-- The first fifteen outputs are the stages, from the last one down. -/
theorem genOutput_iterate (g : BitVec 15) {k : Nat} (h : k ≤ 14) :
    genOutput (genStep^[k] g) = g.getLsbD (14 - k) :=
  genStep_iterate_getLsbD g h (by decide)

theorem symbolBit_genSymbol (g : BitVec 15) : symbolBit (genSymbol g) = genOutput g := by
  unfold symbolBit genSymbol
  cases genOutput g <;> rfl

theorem genSymbol_cases (g : BitVec 15) : genSymbol g = .zero ∨ genSymbol g = .one := by
  unfold genSymbol
  cases genOutput g <;> simp

/-- The first `n` symbols of the pattern from `g` on. -/
def pattern (g : BitVec 15) (n : Nat) : List Symbol := (List.range n).map fun i => genSymbol (genStep^[i] g)

theorem pattern_succ (g : BitVec 15) (n : Nat) :
    pattern g (n + 1) = pattern g n ++ [genSymbol (genStep^[n] g)] := by
  simp [pattern, List.range_succ]

theorem pattern_length (g : BitVec 15) (n : Nat) : (pattern g n).length = n := by simp [pattern]

/-- The number that the first `n` symbols write is the generator's upper `n` stages. -/
theorem pattern_value (g : BitVec 15) {n : Nat} (h : n ≤ 15) :
    (pattern g n).foldl (fun v x => 2 * v + (symbolBit x).toNat) 0 = g.toNat / 2 ^ (15 - n) := by
  induction n with
  | zero =>
    have hlt := g.isLt
    simp only [pattern, List.range_zero, List.map_nil, List.foldl_nil]
    omega
  | succ n ih =>
    have hstage : (genOutput (genStep^[n] g)).toNat = g.toNat / 2 ^ (14 - n) % 2 := by
      rw [genOutput_iterate g (by omega), BitVec.getLsbD, Nat.toNat_testBit]
    have hpow : 2 ^ (15 - n) = 2 ^ (14 - n) * 2 := by
      rw [← pow_succ]
      congr 1
      omega
    rw [pattern_succ, List.foldl_append, ih (by omega), List.foldl_cons, List.foldl_nil,
      symbolBit_genSymbol, hstage, hpow, ← Nat.div_div_eq_div_mul]
    have hsub : 15 - (n + 1) = 14 - n := by omega
    rw [hsub]
    omega

/-- Fifteen symbols give the generator itself. -/
theorem genOfSymbols_pattern (g : BitVec 15) : genOfSymbols (pattern g 15) = g := by
  rw [genOfSymbols, pattern_value g (le_refl 15)]
  simp

/-- A generator that is not all zeros sends a 1 among its first fifteen symbols. -/
theorem pattern_contains_one {g : BitVec 15} (h : g ≠ 0) : (pattern g 15).contains .one = true := by
  obtain ⟨i, hi⟩ : ∃ i, g.getLsbD i = true := by
    by_contra hnone
    refine h (BitVec.eq_of_getLsbD_eq fun i _ => ?_)
    have hfalse : g.getLsbD i = false := by
      cases hg : g.getLsbD i with
      | false => rfl
      | true => exact absurd ⟨i, hg⟩ hnone
    simp [hfalse]
  have hlt : i < 15 := BitVec.lt_of_getLsbD hi
  rw [List.contains_iff_mem, pattern, List.mem_map]
  refine ⟨14 - i, List.mem_range.mpr (by omega), ?_⟩
  have hout : genOutput (genStep^[14 - i] g) = true := by
    rw [genOutput_iterate g (by omega), ← hi]
    congr 1
    omega
  simp [genSymbol, hout]

/-! ## A symbol at the analyzer (R182) -/

section
variable {x : Monitor} {g : BitVec 15}

theorem Monitor.huntSymbol_short (y : Symbol) (hy : y = .zero ∨ y = .one) (h : x.hunt.length < 14) :
    x.huntSymbol y = { x with hunt := x.hunt ++ [y] } := by
  unfold Monitor.huntSymbol
  rw [if_pos (by simpa using hy)]
  simp [show ¬(x.hunt.length = 15) by omega, show ¬(x.hunt.length = 14) by omega]

theorem Monitor.huntSymbol_locks (hg : g ≠ 0) (h : x.hunt = pattern g 14) :
    x.huntSymbol (genSymbol (genStep^[14] g)) =
      { x with gen := genStep^[15] g, hunt := [], correct := 0, an := .checking } := by
  have hlist : x.hunt ++ [genSymbol (genStep^[14] g)] = pattern g 15 := by rw [h, ← pattern_succ]
  unfold Monitor.huntSymbol
  rw [if_pos (by simpa using genSymbol_cases _)]
  simp only [hlist, pattern_length, Nat.reduceEqDiff, if_false, pattern_contains_one hg, decide_true,
    Bool.and_self, if_true, genOfSymbols_pattern]

theorem Monitor.checkSymbol_right : x.checkSymbol (genSymbol x.gen) =
    if 15 ≤ x.correct then { x with gen := genStep x.gen, correct := 16, an := .inSync, miss := 0 }
    else { x with gen := genStep x.gen, correct := x.correct + 1 } := by
  unfold Monitor.checkSymbol
  rw [if_pos rfl]
  by_cases h : 15 ≤ x.correct
  · rw [if_pos h, if_pos (by omega)]
  · rw [if_neg h, if_neg (by omega)]

theorem Monitor.checkSymbol_miss {y : Symbol} (h : y ≠ genSymbol x.gen) :
    x.checkSymbol y = { x with gen := genStep x.gen, an := .hunting, hunt := [] } := if_neg h

theorem Monitor.syncSymbol_right : x.syncSymbol (genSymbol x.gen) =
    { x with gen := genStep x.gen, miss := 0 } := if_pos rfl

theorem Monitor.syncSymbol_miss {y : Symbol} (h : y ≠ genSymbol x.gen) : x.syncSymbol y =
    if x.miss < 3 then { x with gen := genStep x.gen, miss := x.miss + 1 }
    else { x with gen := genStep x.gen, miss := x.miss + 1, an := .hunting, hunt := [] } := by
  unfold Monitor.syncSymbol
  rw [if_neg h]
  by_cases hm : x.miss < 3
  · rw [if_pos hm, if_neg (by omega)]
  · rw [if_neg hm, if_pos (by omega)]

end

section
variable {s : State}

theorem State.analyze_hunting (h : s.mon.an = .hunting) (x : Symbol) :
    s.analyze x = { s with mon := s.mon.huntSymbol x } := by
  simp [State.analyze, h]

theorem State.analyze_checking (h : s.mon.an = .checking) (x : Symbol) :
    s.analyze x = { s with mon := s.mon.checkSymbol x } := by
  simp [State.analyze, h]

theorem State.analyze_inSync_right (h : s.mon.an = .inSync) :
    s.analyze (genSymbol s.mon.gen) = { s with mon := { s.mon with gen := genStep s.mon.gen, miss := 0 } } := by
  simp [State.analyze, h, Monitor.syncSymbol_right]

theorem State.analyze_inSync_miss (h : s.mon.an = .inSync) {x : Symbol} (hx : x ≠ genSymbol s.mon.gen) :
    s.analyze x = { s with
      mon := s.mon.syncSymbol x, cond := (s.count .monPatternErrors 1).cond } := by
  simp [State.analyze, h, hx, State.count]

end

/-- The analyzer reads the monitor alone, and writes it and the conditions. -/
theorem State.analyze_congr {s t : State} (hm : t.mon = s.mon) (hc : t.cond = s.cond) (x : Symbol) :
    (t.analyze x).mon = (s.analyze x).mon ∧ (t.analyze x).cond = (s.analyze x).cond := by
  unfold State.analyze
  rw [hm]
  cases s.mon.an with
  | hunting => exact ⟨rfl, hc⟩
  | checking => exact ⟨rfl, hc⟩
  | inSync =>
    dsimp only
    split
    · exact ⟨by simp [hm], hc⟩
    · exact ⟨by simp [hm], by simp [State.count, hc]⟩

theorem genSymbol_ne_invalid (g : BitVec 15) : Symbol.invalid ≠ genSymbol g := by
  rcases genSymbol_cases g with h | h <;> rw [h] <;> decide

/-! ## The pattern heard from any point of it (R181, R182) -/

/-- The pattern of `g` heard from symbol 0 to symbol `n - 1`. -/
def State.hearPattern (s : State) (g : BitVec 15) (n : Nat) : State :=
  (List.range n).foldl (fun (s : State) i => s.analyze (genSymbol (genStep^[i] g))) s

theorem State.hearPattern_succ (s : State) (g : BitVec 15) (n : Nat) :
    s.hearPattern g (n + 1) = (s.hearPattern g n).analyze (genSymbol (genStep^[n] g)) := by
  simp [State.hearPattern, List.range_succ]

theorem State.hearPattern_hunting {s : State} {g : BitVec 15} (ha : s.mon.an = .hunting) (hh : s.mon.hunt = [])
    {n : Nat} (h : n ≤ 14) : (s.hearPattern g n).mon.an = .hunting ∧
      (s.hearPattern g n).mon.hunt = pattern g n ∧ (s.hearPattern g n).cond = s.cond := by
  induction n with
  | zero => exact ⟨ha, hh, rfl⟩
  | succ n ih =>
    obtain ⟨han, hhunt, hcond⟩ := ih (by omega)
    rw [State.hearPattern_succ, State.analyze_hunting han,
      Monitor.huntSymbol_short _ (genSymbol_cases _) (by rw [hhunt, pattern_length]; omega)]
    exact ⟨han, by rw [hhunt, ← pattern_succ], hcond⟩

theorem State.hearPattern_locks {s : State} {g : BitVec 15} (ha : s.mon.an = .hunting) (hh : s.mon.hunt = [])
    (hg : g ≠ 0) : (s.hearPattern g 15).mon.an = .checking ∧ (s.hearPattern g 15).mon.gen = genStep^[15] g ∧
      (s.hearPattern g 15).mon.correct = 0 ∧ (s.hearPattern g 15).cond = s.cond := by
  obtain ⟨han, hhunt, hcond⟩ := State.hearPattern_hunting (g := g) ha hh (le_refl 14)
  rw [State.hearPattern_succ, State.analyze_hunting han, Monitor.huntSymbol_locks hg hhunt]
  exact ⟨rfl, rfl, rfl, hcond⟩

theorem State.hearPattern_checking {s : State} {g : BitVec 15} (ha : s.mon.an = .hunting) (hh : s.mon.hunt = [])
    (hg : g ≠ 0) {k : Nat} (h : k ≤ 15) : (s.hearPattern g (15 + k)).mon.an = .checking ∧
      (s.hearPattern g (15 + k)).mon.gen = genStep^[15 + k] g ∧
      (s.hearPattern g (15 + k)).mon.correct = k ∧ (s.hearPattern g (15 + k)).cond = s.cond := by
  induction k with
  | zero => exact State.hearPattern_locks ha hh hg
  | succ k ih =>
    obtain ⟨han, hgen, hcorrect, hcond⟩ := ih (by omega)
    rw [← Nat.add_assoc, State.hearPattern_succ, State.analyze_checking han, ← hgen,
      Monitor.checkSymbol_right, if_neg (by omega)]
    refine ⟨han, ?_, by rw [hcorrect], hcond⟩
    rw [hgen, ← Function.iterate_succ_apply' genStep]

theorem State.hearPattern_inSync {s : State} {g : BitVec 15} (ha : s.mon.an = .hunting) (hh : s.mon.hunt = [])
    (hg : g ≠ 0) (k : Nat) : (s.hearPattern g (31 + k)).mon.an = .inSync ∧
      (s.hearPattern g (31 + k)).mon.gen = genStep^[31 + k] g ∧
      (s.hearPattern g (31 + k)).mon.miss = 0 ∧ (s.hearPattern g (31 + k)).cond = s.cond := by
  induction k with
  | zero =>
    obtain ⟨han, hgen, hcorrect, hcond⟩ := State.hearPattern_checking ha hh hg (le_refl 15)
    rw [State.hearPattern_succ s g 30, State.analyze_checking han, ← hgen, Monitor.checkSymbol_right,
      if_pos (by omega)]
    refine ⟨rfl, ?_, rfl, hcond⟩
    rw [hgen, ← Function.iterate_succ_apply' genStep]
  | succ k ih =>
    obtain ⟨han, hgen, hmiss, hcond⟩ := ih
    rw [← Nat.add_assoc, State.hearPattern_succ, ← hgen, State.analyze_inSync_right han]
    refine ⟨han, ?_, rfl, hcond⟩
    rw [hgen, ← Function.iterate_succ_apply' genStep]

end Sys2Proof.Machine

namespace Sys2Proof

open Sys2Proof.Machine

/-- Settles O53: the pattern from any point, a miss in each state, and both closes of a mark. -/
theorem analyzerLocksToThePattern : Obligations.AnalyzerLocksToThePattern := by
  refine ⟨fun s g ha hh hg => ?pattern, fun s x ha hx => ?checking, fun s x ha => ?inSync,
    fun s m hp hl hk hd hst => ?quiet, fun s m hp hk hd hst => ?long⟩
  case pattern =>
    refine ⟨fun n hn => ?_, ?_, fun n hn hn' => ?_, fun n hn => ?_⟩
    · exact (State.hearPattern_hunting ha hh (by omega)).1
    · obtain ⟨han, hgen, hcorrect, -⟩ := State.hearPattern_locks ha hh hg
      exact ⟨han, hgen, hcorrect⟩
    · obtain ⟨k, rfl⟩ := Nat.exists_eq_add_of_le hn
      exact (State.hearPattern_checking ha hh hg (by omega)).1
    · obtain ⟨k, rfl⟩ := Nat.exists_eq_add_of_le hn
      exact State.hearPattern_inSync ha hh hg k
  case checking =>
    intro t
    have ht : t = { s with mon := { s.mon with an := .hunting, hunt := [], gen := genStep s.mon.gen } } :=
      (State.analyze_checking ha x).trans (by rw [Monitor.checkSymbol_miss hx])
    rw [ht]
    exact ⟨rfl, rfl, rfl, rfl⟩
  case inSync =>
    intro t
    by_cases hx : x = genSymbol s.mon.gen
    · have ht : t = { s with mon := { s.mon with gen := genStep s.mon.gen, miss := 0 } } := by
        rw [← State.analyze_inSync_right ha, ← hx]
      rw [ht]
      exact ⟨rfl, rfl, fun _ => ⟨ha, rfl, rfl⟩, fun hne => absurd hx hne⟩
    · have ht : t = { s with
          mon := s.mon.syncSymbol x, cond := (s.count .monPatternErrors 1).cond } :=
        State.analyze_inSync_miss ha hx
      have hmiss := Monitor.syncSymbol_miss hx
      rw [ht]
      refine ⟨?_, rfl, fun h => absurd h hx, fun _ => ⟨rfl, s.count_live .monPatternErrors 1, fun h => ?_, fun h => ?_⟩⟩
      · dsimp only
        rw [hmiss]
        split <;> rfl
      · dsimp only
        rw [hmiss, if_pos h]
        exact ⟨ha, rfl⟩
      · dsimp only
        rw [hmiss, if_neg (by omega)]
        exact ⟨rfl, rfl⟩
  case quiet =>
    intro heard
    have hx := State.exec_markQuietClose hp hl hd
    rw [State.quietClose_testPattern hst hk] at hx
    obtain ⟨hmon, hcond⟩ := State.analyze_congr
      (t := s.markClosed (m.since + 1500000) .idle (classify m.widths)) (s := { s with mon := heard }) rfl rfl
      (classify m.widths)
    obtain ⟨hsmon, hslive⟩ := State.settle_mon_live ((s.markClosed (m.since + 1500000) .idle
      (classify m.widths)).analyze (classify m.widths))
    exact ⟨_, hx, hsmon.trans hmon, hslive.trans (congrArg Conditions.live hcond)⟩
  case long =>
    intro heard
    have hx := State.exec_markLongClose hp hd
    rw [State.longClose_testPattern hst hk] at hx
    refine ⟨_, hx, fun ha => ?_, fun ha => ?_, fun ha => ?_⟩
    · rw [State.analyze_hunting (s := s.markClosed _ _ _) ha]
      exact ⟨rfl, rfl⟩
    · rw [State.analyze_checking (s := s.markClosed _ _ _) ha,
        Monitor.checkSymbol_miss (genSymbol_ne_invalid _)]
      exact ⟨rfl, rfl⟩
    · rw [State.analyze_inSync_miss (s := s.markClosed _ _ _) ha (genSymbol_ne_invalid _),
        Monitor.syncSymbol_miss (genSymbol_ne_invalid _)]
      exact ⟨rfl, rfl⟩

end Sys2Proof

/-! The detector on MON_IN (R168, R169, R171), and the symbols of marks. -/

namespace Sys2Proof.Machine

/-! ## The line (R168) -/

section
variable {s : State} {dt : Nat}

theorem State.exec_monInRise (h : s.monIn = false) :
    exec (.monInRise dt) s = .next ((s.wait dt).monLine true) := by
  simp [exec, execMonInRise, State.wait, h]

theorem State.exec_monInFall (h : s.monIn = true) :
    exec (.monInFall dt) s = .next ((s.wait dt).monLine false) := by
  simp [exec, execMonInFall, State.wait, h]

theorem State.monLine_off (h : s.params.monitorEnable = false) (level : Bool) :
    s.monLine level = { s with monIn := level } := by
  simp [State.monLine, h]

theorem State.monLine_idle_rise (hp : s.por = false) (he : s.params.monitorEnable = true)
    (hd : s.mon.det = .idle) : s.monLine true = State.openMark { s with monIn := true } := by
  simp [State.monLine, hp, he, hd]

theorem State.monLine_mark {m : OpenMark} (hp : s.por = false) (he : s.params.monitorEnable = true)
    (hd : s.mon.det = .mark m) (level : Bool) : s.monLine level = { s with
      monIn := level, mon := { s.mon with det := .mark (m.closeInterval s.now) } } := by
  simp [State.monLine, hp, he, hd]

theorem State.monLine_stuck_fall (hp : s.por = false) (he : s.params.monitorEnable = true)
    (hd : s.mon.det = .stuck) : s.monLine false = { s with
      monIn := false, mon := { s.mon with det := .idle } } := by
  simp [State.monLine, hp, he, hd]

theorem State.markDelay_le (s : State) : s.markDelay ≤ 999 := by
  unfold State.markDelay
  split
  · exact min_le_left _ _
  · have := (Config.delayBeforeFirstEdge s.freeCount).isLt
    omega

end

/-! ## The symbol of a mark (R169) -/

theorem widthNear_iff (nominal w : Nat) :
    widthNear nominal w = true ↔ nominal - 300000 ≤ w ∧ w ≤ nominal + 300000 := by
  simp [widthNear]

theorem classify_one (w : Nat) : classify [w] =
    if 700000 ≤ w ∧ w ≤ 1300000 then .zero
    else if 1700000 ≤ w ∧ w ≤ 2300000 then .one
    else if 3700000 ≤ w ∧ w ≤ 4300000 then .half else .invalid := by
  simp only [classify, widthNear_iff]

theorem classify_three (u v w : Nat) : classify [u, v, w] =
    if (700000 ≤ u ∧ u ≤ 1300000) ∧ (700000 ≤ v ∧ v ≤ 1300000) ∧ (700000 ≤ w ∧ w ≤ 1300000) then .minute
    else .invalid := by
  simp only [classify, Bool.and_eq_true, widthNear_iff, and_assoc]

theorem classify_other {ws : List Nat} (h1 : ws.length ≠ 1) (h3 : ws.length ≠ 3) : classify ws = .invalid := by
  unfold classify
  split
  · exact absurd rfl h1
  · exact absurd rfl h3
  · rfl

/-! ## What a closed mark leaves of the detector (R168, R170) -/

/-- A nibble touches the notice assembly and the received notice alone. -/
theorem Monitor.nibble_keeps (x : Monitor) (low : Bool) (v : BitVec 4) : x.nibble low v = { x with
    collecting := (x.nibble low v).collecting, octets := (x.nibble low v).octets
    heldHigh := (x.nibble low v).heldHigh, rxText := (x.nibble low v).rxText
    rxCycles := (x.nibble low v).rxCycles } := by
  unfold Monitor.nibble
  split
  · rfl
  · rfl
  · rfl
  · unfold Monitor.noticeOctet
    repeat' split
    all_goals rfl

theorem State.judge_detector (s : State) (c : Collection) :
    (s.judge c).mon.det = s.mon.det ∧ (s.judge c).mon.lastSymbol = s.mon.lastSymbol := by
  unfold State.judge
  split
  · dsimp only
    rw [State.verdict_mon, Monitor.lossOfFrame_keeps]
    exact ⟨rfl, rfl⟩
  · dsimp only
    rw [Monitor.nibble_keeps]
    simp only [State.raiseIf_frame, State.count_frame]
    rw [State.verdict_mon, Monitor.lossOfFrame_keeps]
    exact ⟨rfl, rfl⟩

theorem State.assemble_detector (s : State) (x : Symbol) (start : Instant) :
    (s.assemble x start).mon.det = s.mon.det ∧ (s.assemble x start).mon.lastSymbol = s.mon.lastSymbol := by
  unfold State.assemble
  split
  · cases s.mon.coll with
    | none => exact ⟨rfl, rfl⟩
    | some c => exact s.judge_detector c
  · exact ⟨rfl, rfl⟩

theorem State.analyze_detector (s : State) (x : Symbol) :
    (s.analyze x).mon.det = s.mon.det ∧ (s.analyze x).mon.lastSymbol = s.mon.lastSymbol := by
  cases ha : s.mon.an with
  | hunting =>
    rw [State.analyze_hunting ha]
    unfold Monitor.huntSymbol
    dsimp only
    repeat' split
    all_goals exact ⟨rfl, rfl⟩
  | checking =>
    rw [State.analyze_checking ha]
    unfold Monitor.checkSymbol
    repeat' split
    all_goals exact ⟨rfl, rfl⟩
  | inSync =>
    by_cases hx : x = genSymbol s.mon.gen
    · rw [hx, State.analyze_inSync_right ha]
      exact ⟨rfl, rfl⟩
    · rw [State.analyze_inSync_miss ha hx, Monitor.syncSymbol_miss hx]
      split <;> exact ⟨rfl, rfl⟩

theorem State.handOn_detector (s : State) (m : OpenMark) (x : Symbol) :
    (s.handOn m x).mon.det = s.mon.det ∧ (s.handOn m x).mon.lastSymbol = some x := by
  cases hs : m.stale with
  | true =>
    rw [State.handOn_ends x (.inl hs)]
    exact ⟨rfl, rfl⟩
  | false =>
    cases hk : s.key.mode with
    | offAir =>
      rw [State.handOn_ends x (.inr (.inl hk))]
      exact ⟨rfl, rfl⟩
    | carrierOnly =>
      rw [State.handOn_ends x (.inr (.inr hk))]
      exact ⟨rfl, rfl⟩
    | timeCode =>
      rw [State.handOn_timeCode x hs hk]
      exact State.assemble_detector _ x m.start
    | testPattern =>
      rw [State.handOn_testPattern x hs hk]
      exact State.analyze_detector _ x

/-! ## The monitor at a second edge (R171) -/

/-- After its pulses an edge may make an open mark stale, and does no more to the detector. -/
structure Monitor.HeardAlike (x y : Monitor) : Prop where
  delay : y.lastDelay = x.lastDelay
  delayAt : y.delayAt = x.delayAt
  det : y.det = x.det ∨ y.det = x.det.makeStale

theorem State.changeMode_heardAlike (s : State) (m : Mode) : s.mon.HeardAlike (s.changeMode m).mon := by
  by_cases h : s.key.mode = m
  · rw [State.changeMode_same h]
    exact ⟨rfl, rfl, .inl rfl⟩
  · rw [State.changeMode_mon h]
    refine ⟨?_, ?_, .inr (Monitor.modeChange_det _ _ _ _ _)⟩
    all_goals (unfold Monitor.modeChange; repeat' split)
    all_goals rfl

theorem Monitor.HeardAlike.refl (x : Monitor) : x.HeardAlike x := ⟨rfl, rfl, .inl rfl⟩

theorem State.boundaryMode_heardAlike (s : State) : s.mon.HeardAlike s.boundaryMode.mon := by
  unfold State.boundaryMode
  split
  · unfold State.boundaryPending
    dsimp only
    split
    · exact State.changeMode_heardAlike { s with key := { s.key with pendingMode := none } } _
    · exact .refl _
  · unfold State.boundaryOffAir
    split
    · exact .refl _
    · exact s.changeMode_heardAlike _
  · unfold State.boundaryResume
    split
    · exact .refl _
    · split
      · exact State.changeMode_heardAlike { s with key := { s.key with maint := none } } _
      · exact .refl _
  · exact .refl _

theorem State.edgeFinished_heardAlike (s : State) : s.mon.HeardAlike s.edgeFinished.mon := by
  have hboundary : s.mon.HeardAlike s.minuteBoundary.mon := by
    have hmode := State.boundaryMode_heardAlike (State.maintenanceDue { s with key := s.key.endFrame })
    have hstart : (State.maintenanceDue { s with key := s.key.endFrame }).mon = s.mon := by simp
    rw [hstart] at hmode
    simpa [State.minuteBoundary, State.keyerBoundary] using hmode
  have hend : s.edgeFinished.mon = if s.tb.atBoundary then s.minuteBoundary.mon else s.mon := by
    simp only [State.edgeFinished]
    repeat' split
    all_goals simp [State.composition]
  rw [hend]
  split
  · exact hboundary
  · exact .refl _

/-- What SECOND_EDGE makes of the detector and of the last delay. -/
theorem State.secondEdge_mon (s : State) :
    (s.mon.atEdge ⟨max s.now s.tb.due, (s.tb.edge .counted (max s.now s.tb.due)).day,
      (s.tb.edge .counted (max s.now s.tb.due)).sec⟩).HeardAlike s.edgeBegun.edgeFinished.settle.mon := by
  have hbegun : s.edgeBegun.mon = s.mon.atEdge ⟨max s.now s.tb.due,
      (s.tb.edge .counted (max s.now s.tb.due)).day, (s.tb.edge .counted (max s.now s.tb.due)).sec⟩ := by
    simp [State.edgeBegun, State.markBegun, State.beginEdge, State.waitUntil]
  rw [← hbegun]
  exact s.edgeBegun.edgeFinished_heardAlike

end Sys2Proof.Machine

namespace Sys2Proof

open Sys2Proof.Machine

/-- Settles O49: each change of the line by the state of the detector, the closes, and the widths. -/
theorem marksAreHeardAndClassified : Obligations.MarksAreHeardAndClassified := by
  refine ⟨fun dt s hp he hl hd => ?rise, fun s hp hw => ?edge, fun dt s m hp he hl hd => ?fall,
    fun dt s m hp he hl hd => ?again, fun dt s hp he hl hd => ?stuck, fun dt s he => ?off,
    fun s m hp hl hd => ?quiet, fun s m hp hd => ?long, fun s hnone => ?none, fun s hl => ?high,
    fun w => ?one, fun u v w => classify_three u v w, fun ws h1 h3 => classify_other h1 h3⟩
  case rise =>
    have hx := State.exec_monInRise (dt := dt) hl
    rw [State.monLine_idle_rise (s := s.wait dt) hp he hd] at hx
    refine ⟨_, _, hx, State.markDelay_le _, fun hmade => ?_, rfl⟩
    exact if_pos hmade
  case edge =>
    obtain ⟨hdelay, hat, hdet⟩ := s.secondEdge_mon
    obtain ⟨hnow, -⟩ := s.secondEdge_frame
    obtain ⟨-, hday, hsec, -⟩ := s.secondEdge_tb
    refine ⟨_, State.exec_secondEdge hp hw, by rw [hnow]; exact hdelay, hat, fun m hm => ?_,
      fun hm => ?_⟩
    · have hedge : (s.mon.atEdge ⟨max s.now s.tb.due, (s.tb.edge .counted (max s.now s.tb.due)).day,
          (s.tb.edge .counted (max s.now s.tb.due)).sec⟩).det = .mark { m with
            start := if m.start.at_ = max s.now s.tb.due then
              ⟨max s.now s.tb.due, (s.tb.edge .counted (max s.now s.tb.due)).day,
                (s.tb.edge .counted (max s.now s.tb.due)).sec⟩ else m.start } := by
        simp only [Monitor.atEdge, hm, Detector.atEdge]
      rw [hnow, hday, hsec]
      rw [hedge] at hdet
      rcases hdet with h | h
      · exact ⟨m.stale, h⟩
      · exact ⟨true, h⟩
    · have hedge : (s.mon.atEdge ⟨max s.now s.tb.due, (s.tb.edge .counted (max s.now s.tb.due)).day,
          (s.tb.edge .counted (max s.now s.tb.due)).sec⟩).det = s.mon.det := by
        cases hd : s.mon.det with
        | mark m => exact absurd hd (hm m)
        | idle => simp only [Monitor.atEdge, hd, Detector.atEdge]
        | stuck => simp only [Monitor.atEdge, hd, Detector.atEdge]
      rw [hedge] at hdet
      rcases hdet with h | h
      · exact h
      · rw [h]
        cases hd : s.mon.det with
        | mark m => exact absurd hd (hm m)
        | idle => rfl
        | stuck => rfl
  case fall =>
    rw [State.exec_monInFall hl, State.monLine_mark (s := s.wait dt) hp he hd]
    rfl
  case again =>
    rw [State.exec_monInRise hl, State.monLine_mark (s := s.wait dt) hp he hd]
    rfl
  case stuck =>
    rw [State.exec_monInFall hl, State.monLine_stuck_fall (s := s.wait dt) hp he hd]
    rfl
  case off =>
    cases hl : s.monIn with
    | false =>
      rw [State.exec_monInRise hl, State.monLine_off (s := s.wait dt) he]
      exact ⟨rfl, by simp [exec, execMonInFall, State.wait, hl]⟩
    | true =>
      rw [State.exec_monInFall hl, State.monLine_off (s := s.wait dt) he]
      exact ⟨by simp [exec, execMonInRise, State.wait, hl], rfl⟩
  case quiet =>
    have hx := State.exec_markQuietClose hp hl hd
    obtain ⟨hdet, hsym⟩ := State.handOn_detector { s.waitUntil (m.since + 1500000) with
      mon := { s.mon with det := .idle } } m (classify m.widths)
    refine ⟨_, hx, by simp [State.quietClose, State.waitUntil, quietTime], hdet, hsym, ?_, fun h => ?_⟩
    · apply State.ext <;> simp [State.quietClose, State.waitUntil]
    · rw [State.quietClose_ends h]
      exact ⟨rfl, rfl⟩
  case long =>
    have hx := State.exec_markLongClose hp hd
    obtain ⟨hdet, hsym⟩ := State.handOn_detector { s.waitUntil (m.start.at_ + 10000000) with
      mon := { s.mon with det := detectorAtStart s.monIn } } m .invalid
    refine ⟨_, hx, by simp [State.longClose, State.waitUntil, longTime], hdet, hsym, ?_, fun h => ?_⟩
    · apply State.ext <;> simp [State.longClose, State.waitUntil]
    · rw [State.longClose_ends h]
      exact ⟨rfl, rfl⟩
  case none =>
    cases hd : s.mon.det with
    | mark m => exact absurd hd (hnone m)
    | idle => exact ⟨by simp [exec, execMarkQuietClose, hd], by simp [exec, execMarkLongClose, hd]⟩
    | stuck => exact ⟨by simp [exec, execMarkQuietClose, hd], by simp [exec, execMarkLongClose, hd]⟩
  case high =>
    cases hd : s.mon.det <;> simp [exec, execMarkQuietClose, hd, hl]
  case one =>
    rw [classify_one]
    refine ⟨fun h => ?_, fun h => ?_, fun h => ?_, fun h => ?_⟩
    · rw [if_pos h]
    · rw [if_neg (by omega), if_pos h]
    · rw [if_neg (by omega), if_neg (by omega), if_pos h]
    · rw [if_neg (by omega), if_neg (by omega), if_neg (by omega)]

end Sys2Proof

/-! The judgement of a collection (R12, R172..R179). -/

namespace Sys2Proof.Machine

/-! ## The checks by position (R174) -/

/-- Position `i` holds 1. -/
def oneAt (syms : List Symbol) (i : Nat) : Bool := decide (syms[i]? = some .one)

/-- The bits at positions that the list has are read off one by one. -/
theorem bitsAt_eq {syms : List Symbol} {i j : Nat} (h : j < syms.length) :
    bitsAt i j syms = (List.range' i (j + 1 - i)).map (oneAt syms) := by
  apply List.ext_getElem?
  intro n
  simp only [bitsAt, positions, List.getElem?_map, List.getElem?_take, List.getElem?_drop]
  by_cases hn : n < j + 1 - i
  · rw [if_pos hn, List.getElem?_range' hn]
    have hlt : i + n < syms.length := by omega
    simp [List.getElem?_eq_getElem hlt, symbolBit, oneAt]
  · rw [if_neg hn, List.getElem?_eq_none (by simpa using hn)]
    rfl

theorem evenParity_append (bits : List Bool) (b : Bool) :
    evenParity (bits ++ [b]) = (evenParity bits ^^ b) := by
  simp [evenParity]

/-- The parity of a group is that of the number of its ones. -/
theorem evenParity_map {α : Type} (p : α → Bool) (xs : List α) :
    evenParity (xs.map p) = decide (xs.countP p % 2 = 1) := by
  induction xs using List.reverseRecOn with
  | nil => rfl
  | append_singleton xs x ih =>
    rw [List.map_append, List.map_cons, List.map_nil, evenParity_append, ih, List.countP_append]
    cases hx : p x with
    | false => simp [hx]
    | true =>
      simp only [List.countP_cons, hx, List.countP_nil, if_true, Nat.zero_add, Bool.xor_true]
      by_cases hodd : xs.countP p % 2 = 1
      · simp [hodd]; omega
      · simp [hodd]; omega

theorem not_evenParity_iff {α : Type} (p : α → Bool) (xs : List α) :
    (!evenParity (xs.map p)) = true ↔ xs.countP p % 2 = 0 := by
  rw [evenParity_map]
  simp

/-- The four bits of a number, most significant first. -/
theorem bitsBE_four (v : BitVec 4) :
    bitsBE 4 v.toNat = (List.range' 54 4).map fun i => v.getLsbD (57 - i) := by
  simp [bitsBE, List.range', List.range_succ, BitVec.getLsbD]

section
variable {syms : List Symbol}

theorem markersHold_iff : markersHold syms = true ↔ syms[30]? = some .half ∧
    ∀ (i : Nat) x, 1 ≤ i → i ≠ 30 → syms[i]? = some x → x = .zero ∨ x = .one := by
  have hsplit (x : Symbol) : x ∈ positions 1 29 syms ++ syms.drop 31 ↔
      ∃ i, 1 ≤ i ∧ i ≠ 30 ∧ syms[i]? = some x := by
    rw [List.mem_append, positions, List.mem_iff_getElem?, List.mem_iff_getElem?]
    constructor
    · rintro (⟨n, hn⟩ | ⟨n, hn⟩)
      · rw [List.getElem?_take, List.getElem?_drop] at hn
        split at hn
        · exact ⟨1 + n, by omega, by omega, hn⟩
        · cases hn
      · rw [List.getElem?_drop] at hn
        exact ⟨31 + n, by omega, by omega, hn⟩
    · rintro ⟨i, h1, h30, hi⟩
      by_cases hlt : i < 30
      · refine .inl ⟨i - 1, ?_⟩
        rw [List.getElem?_take, List.getElem?_drop, if_pos (by omega), ← hi]
        congr 1
        omega
      · refine .inr ⟨i - 31, ?_⟩
        rw [List.getElem?_drop, ← hi]
        congr 1
        omega
  simp only [markersHold, Bool.and_eq_true, decide_eq_true_eq, List.all_eq_true, hsplit, Bool.or_eq_true]
  constructor
  · rintro ⟨h, hall⟩
    exact ⟨h, fun i x h1 h30 hi => hall x ⟨i, h1, h30, hi⟩⟩
  · rintro ⟨h, hall⟩
    exact ⟨h, fun x ⟨i, h1, h30, hi⟩ => hall i x h1 h30 hi⟩

theorem parityHolds_iff (h : 58 ≤ syms.length) : parityHolds syms = true ↔
    (List.range' 11 8).countP (oneAt syms) % 2 = 0 ∧ (List.range' 19 7).countP (oneAt syms) % 2 = 0 ∧
      (List.range' 26 4 ++ List.range' 31 19).countP (oneAt syms) % 2 = 0 := by
  unfold parityHolds
  rw [bitsAt_eq (by omega), bitsAt_eq (by omega), bitsAt_eq (by omega), bitsAt_eq (by omega),
    ← List.map_append, Bool.and_eq_true, Bool.and_eq_true, not_evenParity_iff, not_evenParity_iff,
    not_evenParity_iff, and_assoc]

theorem crcHolds_iff (h : 58 ≤ syms.length) : crcHolds syms = true ↔
    ∀ i : Nat, i < 4 → oneAt syms (54 + i) =
      (crc4 ((List.range' 1 29 ++ List.range' 31 23).map (oneAt syms))).getLsbD (3 - i) := by
  unfold crcHolds
  rw [bitsAt_eq (by omega), bitsAt_eq (by omega), bitsAt_eq (by omega), ← List.map_append, decide_eq_true_eq,
    bitsBE_four]
  generalize crc4 _ = v
  have hrange : List.range' 54 (57 + 1 - 54) = [54, 55, 56, 57] := rfl
  simp only [hrange, List.map_cons, List.map_nil, List.cons.injEq, and_true]
  constructor
  · rintro ⟨h0, h1, h2, h3⟩ i hi
    interval_cases i
    · exact h0.symm
    · exact h1.symm
    · exact h2.symm
    · exact h3.symm
  · intro hall
    exact ⟨(hall 0 (by decide)).symm, (hall 1 (by decide)).symm, (hall 2 (by decide)).symm,
      (hall 3 (by decide)).symm⟩

end

/-- A symbol is INVALID. -/
theorem contains_invalid_iff {syms : List Symbol} :
    syms.contains .invalid = false ↔ ∀ i : Nat, syms[i]? ≠ some .invalid := by
  rw [← Bool.not_eq_true, List.contains_iff_mem, List.mem_iff_getElem?]
  push Not
  rfl

/-- The checks in their order. -/
theorem frameFault_eq (c : Collection) : frameFault c =
    if ¬(59 ≤ c.syms.length + c.excess ∧ c.syms.length + c.excess ≤ 61) then some .length
    else if c.syms.contains .invalid = true then some .invalidSymbol
    else if ¬markersHold c.syms = true then some .marker
    else if ¬parityHolds c.syms = true then some .parity
    else if ¬crcHolds c.syms = true then some .crc
    else none := by
  simp only [frameFault, Bool.not_eq_true', ← Bool.not_eq_true, Bool.and_eq_true, decide_eq_true_eq]

/-- A frame that passes has the marker, and so the positions before it. -/
theorem frameFault_none_length {c : Collection} (h : frameFault c = none) : 30 < c.syms.length := by
  have hmarkers : markersHold c.syms = true := by
    by_contra hm
    rw [frameFault_eq] at h
    split at h
    · cases h
    · split at h
      · cases h
      · cases h
  obtain ⟨h30, -⟩ := markersHold_iff.mp hmarkers
  exact (List.getElem?_eq_some_iff.mp h30).1

theorem frameFault_length {c : Collection} (h : 0 < c.excess → c.syms.length = 62)
    (hn : 59 ≤ c.syms.length + c.excess) : 58 ≤ c.syms.length := by
  by_cases he : 0 < c.excess
  · rw [h he]
    decide
  · omega

theorem crc4_append (bits : List Bool) (b : Bool) : crc4 (bits ++ [b]) =
    if b ^^ (crc4 bits).getLsbD 3 then (crc4 bits <<< 1) ^^^ 3 else crc4 bits <<< 1 := by
  simp only [crc4, List.foldl_append, List.foldl_cons, List.foldl_nil]
  rfl

/-! ## The record that a frame is matched against, and the symbols that differ (R175) -/

section
variable {k : Keyer} {start : Nat}

theorem Keyer.recordAt_none (h : ∀ g ∈ k.history, start < g.edgeAt) : k.recordAt start = none := by
  have hnone : k.history.filter (fun g => decide (g.edgeAt ≤ start)) = [] := by
    rw [List.filter_eq_nil_iff]
    intro g hg
    simpa using h g hg
  rw [Keyer.recordAt, hnone]
  rfl

theorem Keyer.recordAt_latest {before after : List Keyed} {f : Keyed} (h : k.history = before ++ f :: after)
    (hf : f.edgeAt ≤ start) (ha : ∀ g ∈ after, start < g.edgeAt) : k.recordAt start = some f := by
  have hnone : after.filter (fun g => decide (g.edgeAt ≤ start)) = [] := by
    rw [List.filter_eq_nil_iff]
    intro g hg
    simpa using ha g hg
  rw [Keyer.recordAt, h, List.filter_append, List.filter_cons_of_pos (by simpa using hf), hnone]
  simp

theorem Keyer.recordAt_greatest {f : Keyed} (hs : k.history.Pairwise fun g h => g.edgeAt ≤ h.edgeAt)
    (h : k.recordAt start = some f) : f ∈ k.history ∧ f.edgeAt ≤ start ∧
      ∀ g ∈ k.history, g.edgeAt ≤ start → g.edgeAt ≤ f.edgeAt := by
  obtain ⟨ys, hys⟩ := List.getLast?_eq_some_iff.mp h
  have hmem (g : Keyed) : g ∈ k.history ∧ g.edgeAt ≤ start ↔ g ∈ ys ∨ g = f := by
    have hfilter := List.mem_filter (p := fun g : Keyed => decide (g.edgeAt ≤ start)) (as := k.history) (x := g)
    rw [hys, List.mem_append, List.mem_singleton] at hfilter
    simpa using hfilter.symm
  have hsorted := hs.filter fun g => decide (g.edgeAt ≤ start)
  rw [hys, List.pairwise_append] at hsorted
  obtain ⟨-, -, hle⟩ := hsorted
  obtain ⟨hin, hbefore⟩ := (hmem f).mpr (.inr rfl)
  refine ⟨hin, hbefore, fun g hg hgs => ?_⟩
  rcases (hmem g).mp ⟨hg, hgs⟩ with hy | rfl
  · exact hle g hy f (by simp)
  · exact le_refl _

end

theorem countP_zip_ne (heard sent : List Symbol) :
    (heard.zip sent).countP (fun p => p.1 ≠ p.2) =
      (List.range (min heard.length sent.length)).countP (fun i => decide (heard[i]? ≠ sent[i]?)) := by
  induction heard generalizing sent with
  | nil => simp
  | cons x xs ih =>
    cases sent with
    | nil => simp
    | cons y ys =>
      rw [List.zip_cons_cons, List.countP_cons, ih, List.length_cons, List.length_cons,
        Nat.add_min_add_right, List.range_succ_eq_map, List.countP_cons, List.countP_map]
      simp [Function.comp_def]

theorem differing_eq (heard sent : List Symbol) : differing heard sent =
    (List.range (min heard.length sent.length)).countP (fun i => decide (heard[i]? ≠ sent[i]?)) +
      (max heard.length sent.length - min heard.length sent.length) := by
  rw [differing, countP_zip_ne]
  omega

theorem differing_eq_zero_iff (heard sent : List Symbol) : differing heard sent = 0 ↔ heard = sent := by
  rw [differing_eq]
  constructor
  · intro h
    have hlen : heard.length = sent.length := by omega
    have hcount : (List.range (min heard.length sent.length)).countP
      (fun i => decide (heard[i]? ≠ sent[i]?)) = 0 := by omega
    rw [List.countP_eq_zero] at hcount
    refine List.ext_getElem? fun i => ?_
    by_cases hi : i < heard.length
    · simpa using hcount i (List.mem_range.mpr (by omega))
    · rw [List.getElem?_eq_none (by omega), List.getElem?_eq_none (by omega)]
  · rintro rfl
    simp

/-! ## The nibble of a good frame (R105, R179) -/

theorem symbolBit_getD (syms : List Symbol) (i : Nat) : symbolBit (syms.getD i .zero) = oneAt syms i := by
  rw [List.getD_eq_getElem?_getD]
  cases h : syms[i]? <;> simp [symbolBit, oneAt, h]

theorem nibble_of_bits : ∀ a b c d : Bool,
    BitVec.ofNat 4 ([a, b, c, d].foldr (fun b v => 2 * v + b.toNat) 0) = BitVec.ofNat 4
      ((if a then 1 else 0) + (if b then 2 else 0) + (if c then 4 else 0) + (if d then 8 else 0)) := by
  decide

theorem heardNibble_eq {syms : List Symbol} (h : 4 < syms.length) : heardNibble syms = BitVec.ofNat 4
    ((if oneAt syms 1 then 1 else 0) + (if oneAt syms 2 then 2 else 0) + (if oneAt syms 3 then 4 else 0) +
      (if oneAt syms 4 then 8 else 0)) := by
  have hrange : List.range' 1 (4 + 1 - 1) = [1, 2, 3, 4] := rfl
  rw [heardNibble, bitsAt_eq h, hrange]
  exact nibble_of_bits _ _ _ _

/-! ## The judgement (R176, R177, R178) -/

/-- A bad frame: counted, and taken up by the runs and by FRAME_LOST. -/
def State.BadFrame (s t : State) : Prop :=
  t.cond.live[Counter.monFramesBad.id] = min 4294967295 (s.cond.live[Counter.monFramesBad.id] + 1) ∧
  (s.mon.frameLost = false → s.mon.bad + 1 < s.params.lofSet →
    t.mon.frameLost = false ∧ (t.mon.bad, t.mon.good) = (s.mon.bad + 1, s.mon.good)) ∧
  (s.mon.frameLost = false → s.params.lofSet ≤ s.mon.bad + 1 →
    t.mon.frameLost = true ∧ (t.mon.bad, t.mon.good) = (0, 0)) ∧
  (s.mon.frameLost = true → t.mon.frameLost = true ∧ (t.mon.bad, t.mon.good) = (s.mon.bad, 0))

/-- A good frame's effect on the runs and on FRAME_LOST. -/
def State.GoodFrame (s t : State) : Prop :=
  (s.mon.frameLost = false → t.mon.frameLost = false ∧ (t.mon.bad, t.mon.good) = (0, s.mon.good)) ∧
  (s.mon.frameLost = true → s.params.lofClear ≤ s.mon.good + 1 →
    t.mon.frameLost = false ∧ (t.mon.bad, t.mon.good) = (0, 0)) ∧
  (s.mon.frameLost = true → s.mon.good + 1 < s.params.lofClear →
    t.mon.frameLost = true ∧ (t.mon.bad, t.mon.good) = (s.mon.bad, s.mon.good + 1))

section
variable {s t : State} {f : LastFrame}

theorem State.verdict_badFrame (hf : f.matchedVerdict = false)
    (hlive : t.cond.live[Counter.monFramesBad.id] = (s.verdict f).cond.live[Counter.monFramesBad.id])
    (hruns : (t.mon.frameLost, t.mon.bad, t.mon.good) =
      ((s.verdict f).mon.frameLost, (s.verdict f).mon.bad, (s.verdict f).mon.good)) : s.BadFrame t := by
  obtain ⟨hrun, hlost, hstays⟩ := Monitor.lossOfFrame_bad { s.mon with lastFrame := some f } s.params
  rw [State.verdict_mon, hf] at hruns
  simp only [Prod.mk.injEq] at hruns
  obtain ⟨hl, hb, hg⟩ := hruns
  refine ⟨?_, fun h hlt => ?_, fun h hle => ?_, fun h => ?_⟩
  · rw [hlive, State.verdict_cond, hf]
    exact s.count_live .monFramesBad 1
  · rw [hl, hb, hg, hrun h hlt]
    exact ⟨h, rfl⟩
  · rw [hl, hb, hg, hlost h hle]
    exact ⟨rfl, rfl⟩
  · rw [hl, hb, hg, hstays h]
    exact ⟨h, rfl⟩

theorem State.verdict_goodFrame (hf : f.matchedVerdict = true)
    (hruns : (t.mon.frameLost, t.mon.bad, t.mon.good) =
      ((s.verdict f).mon.frameLost, (s.verdict f).mon.bad, (s.verdict f).mon.good)) : s.GoodFrame t := by
  obtain ⟨hrun, hclear, hgood⟩ := Monitor.lossOfFrame_good { s.mon with lastFrame := some f } s.params
  rw [State.verdict_mon, hf] at hruns
  simp only [Prod.mk.injEq] at hruns
  obtain ⟨hl, hb, hg⟩ := hruns
  refine ⟨fun h => ?_, fun h hle => ?_, fun h hlt => ?_⟩
  · rw [hl, hb, hg, hrun h]
    exact ⟨h, rfl⟩
  · rw [hl, hb, hg, hclear h hle]
    exact ⟨rfl, rfl⟩
  · rw [hl, hb, hg, hgood h hlt]
    exact ⟨h, rfl⟩

theorem State.verdict_live_other (s : State) (f : LastFrame) {i : Fin 12}
    (h : i ≠ (if f.matchedVerdict then Counter.monFramesGood else Counter.monFramesBad).id) :
    (s.verdict f).cond.live[i] = s.cond.live[i] := s.count_live_other 1 h

end

/-- The record of a frame that fails a check. -/
def LastFrame.failed (c : Collection) (r : BadReason) : LastFrame where
  reason := some r
  syms := c.syms
  excess := c.excess
  start := c.start
  matched := none
  differing := 0
  injected := false

section
variable {s : State} {c : Collection}

theorem State.judge_failed {r : BadReason} (h : frameFault c = some r) : s.judge c =
    { s.verdict (.failed c r) with mon := (s.verdict (.failed c r)).mon.loseNibble } := by
  unfold State.judge
  rw [h]
  rfl

/-- What the judgement of a frame that passes leaves of the monitor and of the conditions. -/
theorem State.judge_passed (h : frameFault c = none) :
    (s.judge c).mon = Monitor.nibble { (s.verdict (s.judgeGood c)).mon with inject := false }
      (heardLow c.syms) (heardNibble c.syms) ∧
    (s.judge c).cond = (State.raiseIf ((s.verdict (s.judgeGood c)).count .monSymbolErrors
      (s.judgeGood c).differing) (!(s.judgeGood c).matchedVerdict) .monitorMismatch).cond := by
  unfold State.judge
  rw [h]
  dsimp only
  exact ⟨by simp, rfl⟩

theorem State.judge_passed_live (h : frameFault c = none) : (s.judge c).cond.live =
    ((s.verdict (s.judgeGood c)).count .monSymbolErrors (s.judgeGood c).differing).cond.live := by
  obtain ⟨-, hcond⟩ := State.judge_passed (s := s) h
  rw [hcond, State.raiseIf_live]

theorem State.judge_passed_views (h : frameFault c = none) (hf : (s.judgeGood c).matchedVerdict = false) :
    (s.judge c).views 19 = (true, true) := by
  obtain ⟨-, hcond⟩ := State.judge_passed (s := s) h
  rw [State.views_congr hcond, hf]
  exact State.raise_views_self _ .monitorMismatch

theorem State.judge_passed_quiet (h : frameFault c = none) (hf : (s.judgeGood c).matchedVerdict = true) :
    (s.judge c).cond.viewA = s.cond.viewA ∧ (s.judge c).cond.viewB = s.cond.viewB := by
  obtain ⟨-, hcond⟩ := State.judge_passed (s := s) h
  rw [hcond, hf]
  exact ⟨rfl, rfl⟩

/-- The verdict on a frame that passes, beside its nibble. -/
theorem State.judge_passed_mon (h : frameFault c = none) :
    ((s.judge c).mon.frameLost, (s.judge c).mon.bad, (s.judge c).mon.good) =
      ((s.verdict (s.judgeGood c)).mon.frameLost, (s.verdict (s.judgeGood c)).mon.bad,
        (s.verdict (s.judgeGood c)).mon.good) ∧
    (s.judge c).mon.lastFrame = some (s.judgeGood c) ∧ (s.judge c).mon.inject = false := by
  obtain ⟨hmon, -⟩ := State.judge_passed (s := s) h
  rw [hmon, Monitor.nibble_keeps]
  refine ⟨rfl, ?_, rfl⟩
  rw [State.verdict_mon, Monitor.lossOfFrame_keeps]

/-- The notice assembly reads and writes its own fields. -/
theorem Monitor.nibble_congr {x y : Monitor} (low : Bool) (v : BitVec 4)
    (h : (y.collecting, y.octets, y.heldHigh, y.rxText, y.rxCycles) =
      (x.collecting, x.octets, x.heldHigh, x.rxText, x.rxCycles)) :
    ((y.nibble low v).collecting, (y.nibble low v).octets, (y.nibble low v).heldHigh,
      (y.nibble low v).rxText, (y.nibble low v).rxCycles) =
    ((x.nibble low v).collecting, (x.nibble low v).octets, (x.nibble low v).heldHigh,
      (x.nibble low v).rxText, (x.nibble low v).rxCycles) := by
  simp only [Prod.mk.injEq] at h
  obtain ⟨hc, ho, hh, ht, hn⟩ := h
  unfold Monitor.nibble
  rw [hh]
  cases low <;> cases x.heldHigh with
    | none => simp [Monitor.stopCollecting, hc, ho, hh, ht, hn]
    | some w =>
      simp only [Monitor.stopCollecting, Monitor.noticeOctet, hc, ho, ht, hn]
      repeat' split
      all_goals simp_all

theorem State.judge_passed_notice (h : frameFault c = none) :
    ((s.judge c).mon.collecting, (s.judge c).mon.octets, (s.judge c).mon.heldHigh, (s.judge c).mon.rxText,
      (s.judge c).mon.rxCycles) =
    ((s.mon.nibble (heardLow c.syms) (heardNibble c.syms)).collecting,
      (s.mon.nibble (heardLow c.syms) (heardNibble c.syms)).octets,
      (s.mon.nibble (heardLow c.syms) (heardNibble c.syms)).heldHigh,
      (s.mon.nibble (heardLow c.syms) (heardNibble c.syms)).rxText,
      (s.mon.nibble (heardLow c.syms) (heardNibble c.syms)).rxCycles) := by
  obtain ⟨hmon, -⟩ := State.judge_passed (s := s) h
  rw [hmon]
  refine Monitor.nibble_congr _ _ ?_
  rw [State.verdict_mon, Monitor.lossOfFrame_keeps]

/-- A judgement counts the monitor's three counters of frames alone. -/
theorem State.judge_live_other (s : State) (c : Collection) {i : Fin 12} (h1 : i ≠ Counter.monFramesGood.id)
    (h2 : i ≠ Counter.monFramesBad.id) (h3 : i ≠ Counter.monSymbolErrors.id) :
    (s.judge c).cond.live[i] = s.cond.live[i] := by
  have hverdict (f : LastFrame) : (s.verdict f).cond.live[i] = s.cond.live[i] :=
    s.verdict_live_other f (by split <;> assumption)
  cases h : frameFault c with
  | some r =>
    rw [State.judge_failed h]
    exact hverdict _
  | none =>
    rw [State.judge_passed_live h, State.count_live_other _ _ h3]
    exact hverdict _

/-- The counters of a frame that passes with the verdict MATCHED or not. -/
theorem State.judge_passed_counters (h : frameFault c = none) :
    (s.judge c).cond.live[Counter.monSymbolErrors.id] =
      min 4294967295 (s.cond.live[Counter.monSymbolErrors.id] + (s.judgeGood c).differing) ∧
    (s.judge c).cond.live[Counter.monFramesGood.id] =
      (s.verdict (s.judgeGood c)).cond.live[Counter.monFramesGood.id] ∧
    (s.judge c).cond.live[Counter.monFramesBad.id] =
      (s.verdict (s.judgeGood c)).cond.live[Counter.monFramesBad.id] := by
  have hverdict := s.verdict_live_other (s.judgeGood c) (i := Counter.monSymbolErrors.id)
    (by split <;> decide)
  rw [State.judge_passed_live h]
  refine ⟨?_, State.count_live_other _ _ (by decide), State.count_live_other _ _ (by decide)⟩
  rw [← hverdict]
  exact State.count_live _ .monSymbolErrors _

/-! ## The frame of a good collection (R175, R176, R177) -/

theorem State.judgeGood_noRecord (h : s.key.recordAt c.start.at_ = none) :
    (s.judgeGood c).reason = some .noRecord ∧ (s.judgeGood c).matched = none ∧
      (s.judgeGood c).differing = s.mon.inject.toNat ∧ (s.judgeGood c).injected = s.mon.inject := by
  unfold State.judgeGood
  rw [h]
  exact ⟨rfl, rfl, rfl, rfl⟩

theorem State.judgeGood_record {k : Keyed} (h : s.key.recordAt c.start.at_ = some k) :
    (s.judgeGood c).reason = (if differing c.syms k.record.syms + s.mon.inject.toNat = 0 then none
        else some .mismatch) ∧
      (s.judgeGood c).matched = some (k.record.day, k.record.minute) ∧
      (s.judgeGood c).differing = differing c.syms k.record.syms + s.mon.inject.toNat ∧
      (s.judgeGood c).injected = s.mon.inject := by
  unfold State.judgeGood
  rw [h]
  exact ⟨rfl, rfl, rfl, rfl⟩

end

/-! ## A symbol in the assembler -/

section

variable {s : State} {x : Symbol} {c : Collection}

/-- The collection that an M opens, and the timer it starts. -/
def Monitor.opened (m : Monitor) (start : Instant) (now : Nat) : Monitor :=
  { m with coll := some { start := start, syms := [.minute], excess := 0 }, timer := some (now + 620000000) }

theorem State.assemble_searching (h : x ≠ .minute) (hc : s.mon.coll = none) (start : Instant) :
    s.assemble x start = s := by
  unfold State.assemble
  rw [if_neg h, hc]
  exact congrArg (fun coll => { s with mon := { s.mon with coll := coll } }) hc.symm

theorem State.assemble_inFrame (h : x ≠ .minute) (hc : s.mon.coll = some c) (start : Instant) :
    s.assemble x start = { s with mon := { s.mon with coll := some (c.add x) } } := by
  unfold State.assemble
  rw [if_neg h, hc]
  rfl

theorem State.assemble_opens (hc : s.mon.coll = none) (start : Instant) :
    s.assemble .minute start = { s with mon := s.mon.opened start s.now } := by
  unfold State.assemble
  rw [if_pos rfl, hc]
  rfl

theorem State.assemble_closes (hc : s.mon.coll = some c) (start : Instant) :
    s.assemble .minute start = { s.judge c with mon := (s.judge c).mon.opened start (s.judge c).now } := by
  unfold State.assemble
  rw [if_pos rfl, hc]
  rfl

theorem Collection.add_room {c : Collection} (h : c.syms.length < 62) (x : Symbol) :
    c.add x = { c with syms := c.syms ++ [x] } := if_pos h

theorem Collection.add_full {c : Collection} (h : 62 ≤ c.syms.length) (x : Symbol) :
    c.add x = { c with excess := if c.excess < 255 then c.excess + 1 else 255 } := by
  have : min 255 (c.excess + 1) = if c.excess < 255 then c.excess + 1 else 255 := by split <;> omega
  rw [← this]
  exact if_neg (by omega)

theorem State.judge_now (s : State) (c : Collection) : (s.judge c).now = s.now := by simp

end

end Sys2Proof.Machine

namespace Sys2Proof

open Sys2Proof.Machine

/-- Settles O51: the checks, the record, the differing symbols, the judgement, and the two closes. -/
theorem frameIsJudgedAgainstItsRecord : Obligations.FrameIsJudgedAgainstItsRecord := by
  refine ⟨fun c hex => ?checks, ⟨rfl, crc4_append⟩, fun k start => ⟨Keyer.recordAt_none,
    fun before f after => Keyer.recordAt_latest, fun f => Keyer.recordAt_greatest⟩, differing_eq,
    fun s c => ?judge, fun s m hp hl hk hd hst => ?quiet, fun s m hp hk hd hst => ?long⟩
  case checks =>
    intro n one from_ length known marker parity check crc
    have hlen (h : length) : 58 ≤ c.syms.length := frameFault_length hex h.1
    have hknown : c.syms.contains .invalid = true ↔ ¬known := by
      rw [← Bool.not_eq_false, contains_invalid_iff]
    have hmarker : markersHold c.syms = true ↔ marker := markersHold_iff
    have hparity (h : length) : parityHolds c.syms = true ↔ parity := parityHolds_iff (hlen h)
    have hcrc (h : length) : crcHolds c.syms = true ↔ crc := crcHolds_iff (hlen h)
    have heq := frameFault_eq c
    refine ⟨fun h => ?_, fun h1 h2 => ?_, fun h1 h2 h3 => ?_, fun h1 h2 h3 h4 => ?_,
      fun h1 h2 h3 h4 h5 => ?_, fun h1 h2 h3 h4 h5 => ?_⟩
    · rw [heq, if_pos h]
    · rw [heq, if_neg (not_not.mpr h1), if_pos (hknown.mpr h2)]
    · rw [heq, if_neg (not_not.mpr h1), if_neg (mt hknown.mp (not_not.mpr h2)), if_pos (mt hmarker.mp h3)]
    · rw [heq, if_neg (not_not.mpr h1), if_neg (mt hknown.mp (not_not.mpr h2)),
        if_neg (not_not.mpr (hmarker.mpr h3)), if_pos (mt (hparity h1).mp h4)]
    · rw [heq, if_neg (not_not.mpr h1), if_neg (mt hknown.mp (not_not.mpr h2)),
        if_neg (not_not.mpr (hmarker.mpr h3)), if_neg (not_not.mpr ((hparity h1).mpr h4)),
        if_pos (mt (hcrc h1).mp h5)]
    · rw [heq, if_neg (not_not.mpr h1), if_neg (mt hknown.mp (not_not.mpr h2)),
        if_neg (not_not.mpr (hmarker.mpr h3)), if_neg (not_not.mpr ((hparity h1).mpr h4)),
        if_neg (not_not.mpr ((hcrc h1).mpr h5))]
  case judge =>
    intro t
    refine ⟨fun i h1 h2 h3 => s.judge_live_other c h1 h2 h3, by apply State.ext <;> simp [t], fun r hr => ?_,
      fun h => ?_, fun h hrec => ?_, fun k h hrec => ⟨fun hsame hinj => ?_, fun hdiff => ?_⟩⟩
    · have ht : t = _ := State.judge_failed hr
      have hmon : (s.verdict (.failed c r)).mon.lastFrame = some (.failed c r) ∧
          (s.verdict (.failed c r)).mon.inject = s.mon.inject := by
        rw [State.verdict_mon, Monitor.lossOfFrame_keeps]
        exact ⟨rfl, rfl⟩
      have hverdict : (LastFrame.failed c r).matchedVerdict = false := rfl
      rw [ht]
      exact ⟨⟨_, hmon.1, rfl, rfl, rfl⟩, State.verdict_badFrame rfl rfl rfl,
        s.verdict_live_other _ (by rw [hverdict]; decide), s.verdict_live_other _ (by rw [hverdict]; decide),
        rfl, hmon.2, rfl⟩
    · intro one n
      have hlen := frameFault_none_length h
      have hlow : heardLow c.syms = decide (one 5) := symbolBit_getD c.syms 5
      have hnibble := heardNibble_eq (syms := c.syms) (by omega)
      have hall := State.judge_passed_notice (s := s) h
      rw [hlow, hnibble] at hall
      simpa [oneAt] using hall
    · obtain ⟨hreason, hmatched, hdiffering, hinjected⟩ := State.judgeGood_noRecord hrec
      have hverdict := LastFrame.not_matchedVerdict hreason
      obtain ⟨hruns, hlast, hinject⟩ := State.judge_passed_mon (s := s) h
      obtain ⟨herrors, hgood, hbad⟩ := State.judge_passed_counters (s := s) h
      obtain ⟨hva, hvb⟩ := State.views_of_raised (State.judge_passed_views h hverdict)
      refine ⟨⟨_, hlast, hreason, hmatched, hdiffering, hinjected⟩, State.verdict_badFrame hverdict hbad hruns,
        hgood.trans (s.verdict_live_other _ (by rw [hverdict]; decide)), ?_, hinject, hva, hvb⟩
      rw [herrors, hdiffering]
    · obtain ⟨hreason, hmatched, hdiffering, -⟩ := State.judgeGood_record hrec
      rw [(differing_eq_zero_iff _ _).mpr hsame, hinj] at hreason hdiffering
      have hverdict := (LastFrame.matchedVerdict_iff _).mpr hreason
      obtain ⟨hruns, hlast, -⟩ := State.judge_passed_mon (s := s) h
      obtain ⟨herrors, hgood, hbad⟩ := State.judge_passed_counters (s := s) h
      obtain ⟨hva, hvb⟩ := State.judge_passed_quiet h hverdict
      obtain ⟨hkept, hclear, hrun⟩ := State.verdict_goodFrame (s := s) hverdict hruns
      refine ⟨⟨_, hlast, hreason, hdiffering, hmatched⟩, hgood.trans ?_,
        hbad.trans (s.verdict_live_other _ (by rw [hverdict]; decide)), ?_, hkept, hclear, hrun,
        Prod.ext hva hvb⟩
      · rw [State.verdict_cond, hverdict]
        exact s.count_live .monFramesGood 1
      · rw [herrors, hdiffering]
        rfl
    · obtain ⟨hreason, hmatched, hdiffering, hinjected⟩ := State.judgeGood_record hrec
      have hpos : 0 < differing c.syms k.record.syms + s.mon.inject.toNat := by
        rcases hdiff with hne | hinj
        · have := mt (differing_eq_zero_iff _ _).mp hne
          omega
        · rw [hinj]
          simp
      rw [if_neg (by omega)] at hreason
      have hverdict := LastFrame.not_matchedVerdict hreason
      obtain ⟨hruns, hlast, hinject⟩ := State.judge_passed_mon (s := s) h
      obtain ⟨herrors, hgood, hbad⟩ := State.judge_passed_counters (s := s) h
      obtain ⟨hva, hvb⟩ := State.views_of_raised (State.judge_passed_views h hverdict)
      exact ⟨⟨_, hlast, hreason, by rw [hdiffering]; exact hpos, hdiffering, hinjected, hmatched, herrors⟩,
        State.verdict_badFrame hverdict hbad hruns,
        hgood.trans (s.verdict_live_other _ (by rw [hverdict]; decide)), hinject, hva, hvb⟩
  case quiet =>
    intro x heard
    have hx := State.exec_markQuietClose hp hl hd
    rw [State.quietClose_timeCode hst hk] at hx
    generalize hr : s.markClosed (m.since + 1500000) .idle (classify m.widths) = r at hx
    have hmon : r.mon = heard := by rw [← hr]; rfl
    have hnow : r.now = max s.now (m.since + 1500000) := by rw [← hr]; rfl
    have hcoll : r.mon.coll = s.mon.coll := by rw [hmon]
    refine ⟨_, hx, fun hne hc => ?_, fun c hne hc => ⟨fun hroom => ?_, fun hfull => ?_⟩, fun heq => ?_⟩
    · exact (congrArg State.mon (State.assemble_searching hne (hcoll.trans hc) _)).trans hmon
    · rw [← hmon, ← Collection.add_room hroom]
      exact congrArg State.mon (State.assemble_inFrame hne (hcoll.trans hc) _)
    · rw [← hmon, ← Collection.add_full hfull]
      exact congrArg State.mon (State.assemble_inFrame hne (hcoll.trans hc) _)
    · have heq' : classify m.widths = .minute := heq
      rw [heq']
      rcases hc : s.mon.coll with _ | c
      · rw [State.assemble_opens (hcoll.trans hc)]
        refine ⟨rfl, rfl, hnow, fun _ => ?_, fun c h => (nomatch h)⟩
        rw [← hmon]
        rfl
      · rw [State.assemble_closes (hcoll.trans hc)]
        refine ⟨rfl, rfl, (r.judge_now c).trans hnow, fun h => (nomatch h), fun d h => ?_⟩
        obtain rfl := Option.some.inj h
        have hy : { s with now := (r.judge c).now, mon := heard } = r := by
          rw [r.judge_now, ← hmon, ← hr]
          rfl
        intro y
        have hyj : y = r.judge c := congrArg (·.judge c) hy
        rw [hyj]
        exact ⟨rfl, rfl⟩
  case long =>
    intro heard
    have hx := State.exec_markLongClose hp hd
    rw [State.longClose_timeCode hst hk] at hx
    generalize hr : s.markClosed (m.start.at_ + 10000000) (detectorAtStart s.monIn) .invalid = r at hx
    have hmon : r.mon = heard := by rw [← hr]; rfl
    have hcoll : r.mon.coll = s.mon.coll := by rw [hmon]
    have hlive : r.cond.live = s.cond.live := by rw [← hr]; rfl
    rcases hc : s.mon.coll with _ | c
    · rw [State.assemble_searching (by decide) (hcoll.trans hc)] at hx
      exact ⟨_, hx, hlive, fun _ => hmon, fun c h => (nomatch h)⟩
    · rw [State.assemble_inFrame (by decide) (hcoll.trans hc)] at hx
      refine ⟨_, hx, hlive, fun h => (nomatch h), fun d h => ?_⟩
      obtain rfl := Option.some.inj h
      refine ⟨fun hroom => ?_, fun hfull => ?_⟩
      · rw [← hmon, ← Collection.add_room hroom]
        rfl
      · rw [← hmon, ← Collection.add_full hfull]
        rfl

end Sys2Proof

/-! What a pulse does to its port (R45, R46, R47). -/

namespace Sys2Proof.Machine

/-! ## The evaluations of a port, apart from the state they stand in (R47) -/

/-- The evaluation of a pulse paired with the latest edge, as it acts on its port. -/
def State.evaluated (s : State) (r : RefPort) (u : OpenPulse) : RefPort :=
  ({ r with lastOffset := s.offsetOf u.at_, edgeOffset := some (s.offsetOf u.at_) } : RefPort).judge s.params u
    (s.mismatch u.label)

/-- What an edge's evaluations of its open pulses make of a port. -/
def State.evaluatedAll (s : State) (r : RefPort) : RefPort :=
  r.openPulses.foldl s.evaluated { r with openPulses := [] }

theorem State.evaluated_congr {s t : State} (he : t.tb.edgeAt = s.tb.edgeAt)
    (ht : (t.tb.timeSet, t.tb.day, t.tb.sec) = (s.tb.timeSet, s.tb.day, s.tb.sec)) (hp : t.params = s.params) :
    t.evaluated = s.evaluated := by
  simp only [Prod.mk.injEq] at ht
  obtain ⟨hset, hday, hsec⟩ := ht
  funext r u
  simp only [State.evaluated, State.offsetOf, State.mismatch, he, hset, hday, hsec, hp]

theorem State.evaluations_port (us : List OpenPulse) (s : State) (p : Port) :
    (us.foldl (fun s u => s.completePulse p u (s.offsetOf u.at_)) s).port p =
      us.foldl s.evaluated (s.port p) := by
  induction us generalizing s with
  | nil => rfl
  | cons u us ih =>
    rw [List.foldl_cons, ih, List.foldl_cons, (s.completePulse_port p u _).1,
      State.evaluated_congr (s := s) (by simp [State.completePulse]) (by simp [State.completePulse])
        (by simp [State.completePulse])]
    rfl

theorem State.completeOpen_evaluated (s : State) (p : Port) :
    (s.completeOpen p).port p = s.evaluatedAll (s.port p) := by
  rw [State.completeOpen, State.evaluations_port, State.evaluated_congr (s := s) (by simp) (by simp) (by simp)]
  simp [State.evaluatedAll]

theorem State.completeBoth_evaluated (s : State) (p : Port) :
    ((s.completeOpen .p1).completeOpen .p2).port p = s.evaluatedAll (s.port p) := by
  cases p with
  | p1 => exact ((s.completeOpen .p1).completeOpen_port .p2).2.trans (s.completeOpen_evaluated .p1)
  | p2 =>
    have hother : (s.completeOpen .p1).port .p2 = s.port .p2 := (s.completeOpen_port .p1).2
    rw [State.completeOpen_evaluated, hother, State.evaluatedAll, State.evaluatedAll,
      State.evaluated_congr (s := s) (by simp) (by simp) (by simp)]

/-- The ports after an edge that a pulse makes: the evaluations, and the leap warning's flag. -/
theorem State.makeEdge_port {kind : EdgeKind} (hk : kind ≠ .counted) (s : State) (p : Port) :
    ∃ b, (s.makeEdge kind).port p =
      { (s.beginEdge kind).evaluatedAll ((s.beginEdge kind).port p) with leapDis := b } := by
  obtain ⟨b, hb⟩ := (s.edgeStarted kind).edgeFinished_port p
  refine ⟨b, hb.trans (congrArg (fun r : RefPort => { r with leapDis := b }) ?_)⟩
  rw [← State.completeBoth_evaluated]
  refine State.port_congr ?_ ?_ p <;> simp only [State.edgeStarted, State.pulsesAtEdge, if_neg hk] <;>
    split <;> simp

/-! ## What no evaluation changes -/

/-- What a port holds of its lines: the label that waits and the last, the watch, and the message in
progress. -/
def RefPort.line (r : RefPort) : (Option Label × Option Label) × (Nat × Option Nat × Option Nat) ×
    (List Octet × Bool × Nat) :=
  ((r.waiting, r.last), (r.missed, r.lastPulse, r.watch), (r.rx, r.rxLate, r.rxGapAt))

theorem State.evaluated_line (s : State) (r : RefPort) (u : OpenPulse) : (s.evaluated r u).line = r.line := by
  obtain ⟨-, -, -, hlast, hwaiting, hmissed, hwatch, hpulse, -, -, hrx, hlate, hgap⟩ := RefPort.judge_keeps
    { r with lastOffset := s.offsetOf u.at_, edgeOffset := some (s.offsetOf u.at_) } s.params u
    (s.mismatch u.label)
  simp [RefPort.line, State.evaluated, hlast, hwaiting, hmissed, hwatch, hpulse, hrx, hlate, hgap]

theorem State.evaluatedAll_line (s : State) (r : RefPort) : (s.evaluatedAll r).line = r.line :=
  foldl_keeps (P := fun x : RefPort => x.line = r.line) (fun x u hx => (s.evaluated_line x u).trans hx) _ _ rfl

theorem State.makeEdge_line {kind : EdgeKind} (hk : kind ≠ .counted) (s : State) (p : Port) :
    ((s.makeEdge kind).port p).line = (s.port p).line := by
  obtain ⟨b, hb⟩ := s.makeEdge_port hk p
  calc ((s.makeEdge kind).port p).line
      = ((s.beginEdge kind).evaluatedAll ((s.beginEdge kind).port p)).line := by rw [hb]; rfl
    _ = ((s.beginEdge kind).port p).line := State.evaluatedAll_line _ _
    _ = (s.port p).line := by cases p <;> rfl

/-- The port that pairs its pulse with the latest edge. -/
theorem State.pulseNow_port (s : State) (p : Port) (u : OpenPulse) :
    (s.pulseNow p u).port p = s.evaluated (s.port p) u ∧ (s.pulseNow p u).port p.other = s.port p.other := by
  obtain ⟨hport, hother⟩ := (s.correct p (s.offsetOf u.at_)).completePulse_port p u (s.offsetOf u.at_)
  have hafter (q : Port) : (s.pulseNow p u).port q =
      ((s.correct p (s.offsetOf u.at_)).completePulse p u (s.offsetOf u.at_)).port q := by
    refine State.port_congr ?_ ?_ q <;> simp [State.pulseNow]
  have hcorrect (q : Port) : (s.correct p (s.offsetOf u.at_)).port q = s.port q :=
    State.port_congr (by simp) (by simp) q
  refine ⟨?_, (hafter _).trans (hother.trans (hcorrect _))⟩
  rw [hafter, hport, hcorrect]
  simp [State.evaluated, State.mismatch]

/-! ## The command -/

/-- The pulse of port `p` as REF_PULSE finds it. -/
def State.pulseIn (s : State) (p : Port) (dt : Nat) : OpenPulse :=
  (s.port p).openPulse s.params.qualWindow (s.now + dt)

/-- The state in which the port has taken its pulse. -/
def State.pulseTaken (s : State) (p : Port) (dt : Nat) : State :=
  { s with now := s.now + dt }.setPort p ((s.port p).pulse s.params.qualWindow (s.now + dt))

theorem State.exec_refPulse_disabled {s : State} {p : Port} (hp : s.por = false)
    (h : (s.port p).st = .disabled) (dt : Nat) : exec (.refPulse p dt) s = .next { s with now := s.now + dt } := by
  cases p <;> simp_all [exec, execRefPulse, State.wait, State.port]

theorem State.exec_refPulse {s : State} {p : Port} (hp : s.por = false) (h : (s.port p).st ≠ .disabled)
    (dt : Nat) : exec (.refPulse p dt) s =
      .next ((s.pulseTaken p dt).pulseEffects p (s.pulseIn p dt)).settle := by
  have hport : (s.wait dt).port p = s.port p := by cases p <;> rfl
  have hrun : ((s.wait dt).por || decide ((s.port p).st = .disabled)) = false := by simp [State.wait, hp, h]
  simp only [exec, execRefPulse, hport, hrun]
  rfl

/-- What a pulse makes of its port's lines. -/
theorem RefPort.pulse_line (r : RefPort) (window now : Nat) : (r.pulse window now).line =
    ((none, r.waiting.orElse fun _ => r.last), (0, some now, some (now + (10000000 + window))),
      (r.rx, !r.rx.isEmpty, r.rxGapAt)) := by
  unfold RefPort.pulse RefPort.present
  split <;> rfl

theorem State.pulseTaken_port (s : State) (p : Port) (dt : Nat) :
    (s.pulseTaken p dt).port p = (s.port p).pulse s.params.qualWindow (s.now + dt) ∧
      (s.pulseTaken p dt).port p.other = s.port p.other := by
  cases p <;> exact ⟨rfl, rfl⟩

theorem State.pushOpen_port (s : State) (p : Port) (u : OpenPulse) :
    (s.pushOpen p u).port p = { s.port p with openPulses := (s.port p).openPulses ++ [u] } ∧
      (s.pushOpen p u).port p.other = s.port p.other := by
  cases p <;> exact ⟨rfl, rfl⟩

/-- The four things that a pulse can do: carry out time acquisition, carry out a phase step, be paired
with the latest edge, or wait for the next. -/
theorem State.pulseEffects_cases {s : State} {p : Port} {u : OpenPulse} {P : State → Prop}
    (hedge : ∀ kind, kind ≠ .counted → P ((s.pushOpen p u).makeEdge kind)) (hnow : P (s.pulseNow p u))
    (hopen : P (s.pushOpen p u)) : P (s.pulseEffects p u) := by
  unfold State.pulseEffects
  split
  case h_1 label _ => exact hedge (.acquisition label) nofun
  case h_2 =>
    split
    · exact hedge .phaseStep nofun
    · split
      · exact hnow
      · exact hopen

theorem State.pulseEffects_line (s : State) (p : Port) (u : OpenPulse) :
    ((s.pulseEffects p u).port p).line = (s.port p).line := by
  have hpush : ((s.pushOpen p u).port p).line = (s.port p).line := by rw [(s.pushOpen_port p u).1]; rfl
  refine State.pulseEffects_cases (P := fun t => (t.port p).line = (s.port p).line)
    (fun kind hk => ((s.pushOpen p u).makeEdge_line hk p).trans hpush) ?_ hpush
  rw [(s.pulseNow_port p u).1, State.evaluated_line]

/-! ## The first pulse of an ABSENT port (R46, R48) -/

/-- The port is a CANDIDATE with no good second yet. -/
def RefPort.Begun (r : RefPort) : Prop := r.st = .candidate ∧ r.goodRun = 0

theorem State.evaluated_begun {r : RefPort} (h : r.Begun) (s : State) {u : OpenPulse}
    (hu : u.interval ≠ .regular) : (s.evaluated r u).Begun := by
  obtain ⟨hst, -⟩ := h
  simp [RefPort.Begun, State.evaluated, RefPort.judge, hst, hu]

theorem State.pulseEffects_begun {s : State} {p : Port} {u : OpenPulse} (h : (s.port p).Begun)
    (ho : (s.port p).openPulses = []) (hu : u.interval ≠ .regular) : ((s.pulseEffects p u).port p).Begun := by
  have hpush : (s.pushOpen p u).port p = { s.port p with openPulses := [u] } := by
    rw [(s.pushOpen_port p u).1, ho]; rfl
  refine State.pulseEffects_cases (P := fun t => (t.port p).Begun) (fun kind hk => ?_) ?_ ?_
  · obtain ⟨b, hb⟩ := (s.pushOpen p u).makeEdge_port hk p
    have hfresh : ((s.pushOpen p u).beginEdge kind).port p =
        { s.port p with openPulses := [u], edgeOffset := none } := by
      calc ((s.pushOpen p u).beginEdge kind).port p
          = ((s.pushOpen p u).port p).freshEdge := by cases p <;> rfl
        _ = _ := by rw [hpush]; rfl
    rw [hb, hfresh]
    exact State.evaluated_begun (r := { s.port p with openPulses := [], edgeOffset := none }) h _ hu
  · rw [(s.pulseNow_port p u).1]
    exact State.evaluated_begun h s hu
  · rw [hpush]
    exact h

end Sys2Proof.Machine

namespace Sys2Proof

open Sys2Proof.Machine

/-- Settles O25: whatever a pulse does, its port's lines are as the pulse left them, for no evaluation changes
them, and a first pulse has no interval to be good by. -/
theorem pulseTakesTheWaitingLabel : Obligations.PulseTakesTheWaitingLabel := by
  intro p dt s hp
  refine ⟨fun hd => State.exec_refPulse_disabled hp hd dt, fun hd => ?_⟩
  obtain ⟨htaken, -⟩ := s.pulseTaken_port p dt
  have hline := (s.pulseTaken p dt).pulseEffects_line p (s.pulseIn p dt)
  rw [htaken, RefPort.pulse_line] at hline
  have hport : ((s.pulseTaken p dt).pulseEffects p (s.pulseIn p dt)).settle.port p =
      ((s.pulseTaken p dt).pulseEffects p (s.pulseIn p dt)).port p := State.port_congr rfl rfl p
  rw [← hport] at hline
  simp only [RefPort.line, Prod.mk.injEq] at hline
  obtain ⟨⟨hwaiting, hlast⟩, ⟨hmissed, hpulse, hwatch⟩, -⟩ := hline
  refine ⟨_, State.exec_refPulse hp hd dt, hwaiting, hmissed, hpulse, hwatch, ?_, fun ha hn ho => ?_, ?_⟩
  · rw [hlast]
    cases (s.port p).waiting <;> rfl
  · rw [hport]
    refine State.pulseEffects_begun ?_ ?_ ?_
    · rw [htaken]
      simp [RefPort.Begun, RefPort.pulse, RefPort.present, ha, RefPort.moveTo]
    · rw [htaken]
      simp [RefPort.pulse, RefPort.present, ha, RefPort.moveTo, ho]
    · simp [State.pulseIn, RefPort.openPulse, RefPort.intervalAt, hn]
  · apply State.ext <;> simp [State.pulseTaken]

end Sys2Proof

/-! The octets of the time messages (R44, R45). -/

namespace Sys2Proof.Machine

/-! ## Octets on a port's line -/

section

variable {r : RefPort}

theorem RefPort.octet_begins (h : r.st ≠ .disabled) (hrx : r.rx = []) (now : Nat) :
    r.octet now 0x5A = { r with rx := [0x5A], rxLate := false, rxGapAt := now + 20000 } := by
  simp [RefPort.octet, h, hrx, msgGap]

theorem RefPort.octet_disabled (h : r.st = .disabled) (now : Nat) (o : Octet) : r.octet now o = r := if_pos h

theorem RefPort.octets_disabled (h : r.st = .disabled) (now : Nat) (os : List Octet) :
    os.foldl (fun r o => r.octet now o) r = r :=
  foldl_keeps (P := fun x => x = r) (fun x o hx => by rw [hx]; exact RefPort.octet_disabled h now o) _ _ rfl

theorem RefPort.octet_joins (h : r.st ≠ .disabled) (hrx : r.rx ≠ []) (hlen : r.rx.length < 7) (now : Nat)
    (o : Octet) : r.octet now o = { r with rx := r.rx ++ [o], rxGapAt := now + 20000 } := by
  rw [RefPort.octet, if_neg h, if_neg hrx, if_pos hlen]
  rfl

theorem RefPort.octet_completes (h : r.st ≠ .disabled) (hlen : r.rx.length = 7) (now : Nat) (o : Octet) :
    r.octet now o = { r.messageDone (r.rx ++ [o]) with rx := [], rxLate := false } := by
  have hrx : r.rx ≠ [] := fun he => by simp [he] at hlen
  rw [RefPort.octet, if_neg h, if_neg hrx, if_neg (by omega)]

/-- What a message says does not depend on how its octets came. -/
theorem RefPort.messageDone_line (r : RefPort) (rx : List Octet) (gap : Nat) (msg : List Octet) :
    ({ { r with rx := rx, rxGapAt := gap }.messageDone msg with rx := [], rxLate := false } : RefPort) =
      { r.messageDone msg with rx := [], rxLate := false, rxGapAt := gap } := by
  unfold RefPort.messageDone
  dsimp only
  split
  · rfl
  · split <;> rfl

/-- The octets that complete a message in progress. -/
theorem RefPort.octets_complete (now : Nat) (os : List Octet) {r : RefPort} (h : r.st ≠ .disabled)
    (hrx : r.rx ≠ []) (htwo : 2 ≤ os.length) (hlen : r.rx.length + os.length = 8) :
    os.foldl (fun r o => r.octet now o) r =
      { r.messageDone (r.rx ++ os) with rx := [], rxLate := false, rxGapAt := now + 20000 } := by
  induction os generalizing r with
  | nil => simp at htwo
  | cons o os ih =>
    rw [List.foldl_cons, RefPort.octet_joins h hrx (by simp only [List.length_cons] at hlen htwo; omega)]
    have hall : r.rx ++ o :: os = (r.rx ++ [o]) ++ os := by simp
    rw [hall]
    rcases os with _ | ⟨o', _ | ⟨o'', os⟩⟩
    · simp at htwo
    · rw [List.foldl_cons, List.foldl_nil, RefPort.octet_completes (by exact h) (by simpa using hlen)]
      exact RefPort.messageDone_line _ _ _ _
    · rw [ih (by exact h) (by simp) (by simp)
        (by simp only [List.length_append, List.length_cons, List.length_nil] at hlen ⊢; omega)]
      have hline := RefPort.messageDone_line r (r.rx ++ [o]) (now + 20000) (r.rx ++ [o] ++ o' :: o'' :: os)
      exact congrArg (fun x : RefPort => { x with rxGapAt := now + 20000 }) hline

/-- The eight octets of a message, received with none in progress. -/
theorem RefPort.octets_message (now : Nat) {body : List Octet} (h : r.st ≠ .disabled) (hrx : r.rx = [])
    (hlen : body.length = 7) : (0x5A :: body).foldl (fun r o => r.octet now o) r =
      { { r with rxLate := false }.messageDone (0x5A :: body) with
        rx := [], rxLate := false, rxGapAt := now + 20000 } := by
  rw [List.foldl_cons, RefPort.octet_begins h hrx,
    RefPort.octets_complete now body (by exact h) (by simp) (by omega) (by simp [hlen])]
  have hline := RefPort.messageDone_line { r with rxLate := false } [0x5A] (now + 20000) (0x5A :: body)
  exact congrArg (fun x : RefPort => { x with rxGapAt := now + 20000 }) hline

theorem RefPort.messageDone_none (h : messageOf msg = none) : r.messageDone msg = r := by
  unfold RefPort.messageDone
  rw [h]
  exact ite_self r

theorem RefPort.messageDone_late (h : r.rxLate = true) (msg : List Octet) : r.messageDone msg = r := if_pos h

theorem RefPort.messageDone_some {valid : Bool} {x : Label} (h : messageOf msg = some (valid, x))
    (hl : r.rxLate = false) : r.messageDone msg = { r with waiting := if valid then some x else none } := by
  unfold RefPort.messageDone
  rw [if_neg (by simp [hl]), h]

end

/-! ## What a message says (R44) -/

theorem messageOf_badCheck {o1 o2 o3 o4 o5 o6 o7 : Octet} (o : Octet)
    (h : (o1.toNat + o2.toNat + o3.toNat + o4.toNat + o5.toNat + o6.toNat + o7.toNat) % 256 ≠ 0) :
    messageOf [o, o1, o2, o3, o4, o5, o6, o7] = none := by
  refine if_pos fun hsum => h ?_
  have hnat := congrArg BitVec.toNat hsum
  simp only [BitVec.toNat_add] at hnat
  simp at hnat
  omega

theorem messageOf_badLeap {o1 : Octet} (o o2 o3 o4 o5 o6 o7 : Octet)
    (h1 : o1.getLsbD 1 = true) (h2 : o1.getLsbD 2 = true) :
    messageOf [o, o1, o2, o3, o4, o5, o6, o7] = none := by
  have hcode : o1.toNat / 2 % 4 = 3 := by
    revert h1 h2
    revert o1
    decide
  simp [messageOf, leapWarningOf, hcode]

theorem append_octet_toNat (v : BitVec n) (b : Octet) : (v ++ b).toNat = 256 * v.toNat + b.toNat := by
  rw [BitVec.toNat_append, ← Nat.shiftLeft_add_eq_or_of_lt b.isLt, Nat.shiftLeft_eq]
  omega

/-- What the eight octets of a message say, by the numbers they stand for. -/
theorem messageOf_octets (o o1 o2 o3 o4 o5 o6 o7 : Octet) :
    messageOf [o, o1, o2, o3, o4, o5, o6, o7] =
      if o1 + o2 + o3 + o4 + o5 + o6 + o7 ≠ 0 then none
      else match leapWarningOf o1 with
        | none => none
        | some w =>
          if 36524 < 256 * o2.toNat + o3.toNat || 86400 < 65536 * o4.toNat + 256 * o5.toNat + o6.toNat then none
          else some (o1.getLsbD 0, {
            day := 256 * o2.toNat + o3.toNat
            sec := 65536 * o4.toNat + 256 * o5.toNat + o6.toNat
            leap := w }) := by
  have hsec : (o4 ++ o5 ++ o6).toNat = 65536 * o4.toNat + 256 * o5.toNat + o6.toNat := by
    rw [append_octet_toNat, append_octet_toNat]
    omega
  simp only [messageOf, append_octet_toNat (n := 8), hsec] <;> rfl

theorem messageOf_outOfRange {o2 o3 o4 o5 o6 : Octet} (o o1 o7 : Octet)
    (h : 36524 < 256 * o2.toNat + o3.toNat ∨ 86400 < 65536 * o4.toNat + 256 * o5.toNat + o6.toNat) :
    messageOf [o, o1, o2, o3, o4, o5, o6, o7] = none := by
  rw [messageOf_octets]
  split
  · rfl
  · split
    · rfl
    · exact if_pos (by simpa using h)

/-- The status octet of a message formed for a label. -/
def statusOf (leap : LeapCode) (valid : Bool) : Octet :=
  BitVec.ofNat 8 (2 * (match leap with
    | .none => 0
    | .insert => 1
    | .delete => 2) + valid.toNat)

theorem statusOf_reads (leap : LeapCode) (valid : Bool) :
    leapWarningOf (statusOf leap valid) = some leap ∧ (statusOf leap valid).getLsbD 0 = valid := by
  cases leap <;> cases valid <;> decide

/-- The octets that follow 0x5A in a message formed for a label: the last makes them sum to 0. -/
def messageBody (valid : Bool) (x : Label) : List Octet :=
  let counted := [statusOf x.leap valid, BitVec.ofNat 8 (x.day / 256), BitVec.ofNat 8 x.day,
    BitVec.ofNat 8 (x.sec / 256 / 256), BitVec.ofNat 8 (x.sec / 256), BitVec.ofNat 8 x.sec]
  counted ++ [-(counted.foldl (· + ·) 0)]

theorem timeMessage_eq (valid : Bool) (x : Label) : timeMessage valid x = 0x5A :: messageBody valid x := rfl

/-- A message formed for a label says that label. -/
theorem messageOf_timeMessage {x : Label} (hx : x.InRange) (valid : Bool) :
    messageOf (timeMessage valid x) = some (valid, x) := by
  obtain ⟨hday, hsec⟩ := hx
  obtain ⟨hleap, hvalid⟩ := statusOf_reads x.leap valid
  have hdayNat : 256 * (BitVec.ofNat 8 (x.day / 256)).toNat + (BitVec.ofNat 8 x.day).toNat = x.day := by
    simp only [BitVec.toNat_ofNat]
    omega
  have hsecNat : 65536 * (BitVec.ofNat 8 (x.sec / 256 / 256)).toNat +
      256 * (BitVec.ofNat 8 (x.sec / 256)).toNat + (BitVec.ofNat 8 x.sec).toNat = x.sec := by
    simp only [BitVec.toNat_ofNat]
    omega
  rw [timeMessage_eq]
  simp only [messageBody, List.foldl_cons, List.foldl_nil, List.cons_append, List.nil_append]
  rw [messageOf_octets, hleap, hvalid, hdayNat, hsecNat, if_neg (by simp)]
  exact if_neg (by simp; omega)

/-! ## The commands on a message's line -/

theorem State.exec_refMessage {s : State} (hp : s.por = false) (p : Port) (os : List Octet) (dt : Nat) :
    exec (.refMessage p os dt) s = .next ({ s with now := s.now + dt }.setPort p
      (os.foldl (fun r o => r.octet (s.now + dt) o) (s.port p))) := by
  have hport : (s.wait dt).port p = s.port p := by cases p <;> rfl
  have hrun : (s.wait dt).por = false := hp
  simp only [exec, execRefMessage, hport, hrun]
  rfl

theorem State.setPort_port (s : State) (p : Port) (n : Nat) :
    { s with now := n }.setPort p (s.port p) = { s with now := n } := by cases p <;> rfl

end Sys2Proof.Machine

namespace Sys2Proof

open Sys2Proof.Machine

/-- Settles O28: the eight octets of a message act by what it says, whatever state they find but a late
one. -/
theorem timeMessageSetsTheLabel : Obligations.TimeMessageSetsTheLabel := by
  refine ⟨fun p valid x dt s hp hx hrx => ⟨fun hd => ?_, fun hd => ?_⟩,
    fun p o1 o2 o3 o4 o5 o6 o7 dt s hp hd hrx hbad => ?_, fun p os dt s hp hd hrx hl htwo hlen => ?_,
    fun p o dt s hp => ⟨fun hlen hd hl => ?_, fun hrx ho => ?_⟩, fun p dt s hp hd => ?_,
    fun p dt s hp => ⟨fun hrx => ?_, fun hrx => ?_, ?_⟩⟩
  · have hmsg := messageOf_timeMessage hx valid
    rw [State.exec_refMessage hp, timeMessage_eq, RefPort.octets_message _ hd hrx rfl, ← timeMessage_eq,
      RefPort.messageDone_some hmsg rfl]
  · rw [State.exec_refMessage hp, RefPort.octets_disabled hd, State.setPort_port]
  · have hmsg : messageOf [0x5A, o1, o2, o3, o4, o5, o6, o7] = none := by
      rcases hbad with hcheck | ⟨h1, h2⟩ | hrange
      · exact messageOf_badCheck _ hcheck
      · exact messageOf_badLeap _ _ _ _ _ _ _ h1 h2
      · exact messageOf_outOfRange _ _ _ (by omega)
    rw [State.exec_refMessage hp, RefPort.octets_message _ hd hrx rfl, RefPort.messageDone_none hmsg]
  · rw [State.exec_refMessage hp, RefPort.octets_complete _ os hd hrx htwo hlen, RefPort.messageDone_late hl]
  · rw [State.exec_refMessage hp, List.foldl_cons, List.foldl_nil, RefPort.octet_completes hd hlen,
      RefPort.messageDone_late hl]
  · have hsame : (s.port p).octet (s.now + dt) o = s.port p := by
      rw [RefPort.octet, if_pos hrx, if_neg ho]
      exact ite_self _
    rw [State.exec_refMessage hp, List.foldl_cons, List.foldl_nil, hsame, State.setPort_port]
  · have hline := (s.pulseTaken p dt).pulseEffects_line p (s.pulseIn p dt)
    rw [(s.pulseTaken_port p dt).1, RefPort.pulse_line] at hline
    refine ⟨_, State.exec_refPulse hp hd dt, ?_⟩
    have hrx := congrArg (fun x => x.2.2) hline
    refine (Eq.trans ?_ hrx).trans ?_
    · cases p <;> rfl
    · cases (s.port p).rx <;> rfl
  · simp [exec, execRefMsgGapExpiry, hp, hrx, State.waitUntil, RefPort.dropMessage]
  · simp [exec, execRefMsgGapExpiry, hp, hrx]
  · have hport : (s.wait dt).port p = s.port p := by cases p <;> rfl
    have hrun : (s.wait dt).por = false := hp
    simp only [exec, execRefMsgFramingError, hport, hrun]
    rfl

end Sys2Proof

/-! What the selector and the timebase make of a port that moved (R30, R31, R50, R53..R55, R58). -/

namespace Sys2Proof.Machine

/-! ## The selector and the timebase apart (R50, R53, R54) -/

theorem State.clearDisagree_selection (s0 s : State) :
    ((s0.clearDisagree s).sel.selection, (s0.clearDisagree s).sel.mode, (s0.clearDisagree s).sel.manual) =
      (s.sel.selection, s.sel.mode, s.sel.manual) := by
  unfold State.clearDisagree
  split <;> rfl

theorem State.clearDisagree_stays {s0 s : State} (h : ∀ p, s0.leftQualified s p = false) :
    s0.clearDisagree s = s := by
  simp [State.clearDisagree, h]

theorem State.clearDisagree_left {s0 s : State} {p : Port} (h : s0.leftQualified s p = true) :
    (s0.clearDisagree s).sel.disagree = false := by
  have hleft : (s0.leftQualified s .p1 || s0.leftQualified s .p2) = true := by cases p <;> simp [h]
  simp only [State.clearDisagree, hleft, Bool.true_and]
  split
  · rfl
  · simp_all

theorem State.autoSelection_congr {s x y : State} (h1 : y.ref1 = x.ref1) (h2 : y.ref2 = x.ref2)
    (hs : (y.sel.selection, y.sel.mode) = (x.sel.selection, x.sel.mode)) :
    s.autoSelection y = s.autoSelection x := by
  simp only [Prod.mk.injEq] at hs
  have hq (p : Port) : y.qualified p = x.qualified p :=
    State.qualified_congr (congrArg RefPort.st (State.port_congr h1 h2 p))
  simp only [State.autoSelection, State.leftQualified, State.becameQualified, hs.1, hs.2, hq] <;> rfl

theorem State.portsMoved_eq (s0 s : State) :
    s0.portsMoved s = (s0.clearDisagree s).select (s0.autoSelection s) := by
  have hsel := s0.clearDisagree_selection s
  simp only [Prod.mk.injEq] at hsel
  rw [State.portsMoved, State.autoSelection_congr (x := s) (by simp) (by simp) (by rw [hsel.1, hsel.2.1])]

theorem State.portsMoved_sel (s0 s : State) :
    (s0.portsMoved s).sel = { (s0.clearDisagree s).sel with selection := s0.autoSelection s } := by
  rw [State.portsMoved_eq, State.select_sel]

theorem State.portsMoved_cond (s0 s : State) :
    (s0.portsMoved s).cond = (s.raiseIf (s.sel.selection ≠ s0.autoSelection s) .refSwitch).cond := by
  have hsel := s0.clearDisagree_selection s
  simp only [Prod.mk.injEq] at hsel
  rw [State.portsMoved_eq, State.select_cond, hsel.1]
  by_cases h : s.sel.selection = s0.autoSelection s <;> simp [h, State.raiseIf, State.raise]

theorem State.portsMoved_views (s0 s : State) : (s0.portsMoved s).views 15 =
    if s.sel.selection ≠ s0.autoSelection s then (true, true) else s.views 15 := by
  rw [State.views_congr (s0.portsMoved_cond s)]
  refine (s.raiseIf_views_self _ .refSwitch).trans ?_
  by_cases h : s.sel.selection = s0.autoSelection s
  · rw [if_neg (by simp [h]), if_neg (not_not.mpr h)]
    rfl
  · rw [if_pos (by simp [h]), if_pos h]

theorem State.portsMoved_views_other (s0 s : State) {i : Nat} (h : i ≠ 15) :
    (s0.portsMoved s).views i = s.views i := by
  rw [State.views_congr (s0.portsMoved_cond s)]
  exact s.raiseIf_views_other _ .refSwitch h

theorem State.portsMoved_tb_eq (s0 s : State) :
    (s0.portsMoved s).tb = (s.select (s0.autoSelection s)).tb := by
  have hsel := s0.clearDisagree_selection s
  simp only [Prod.mk.injEq] at hsel
  have hport (p : Port) : (s0.clearDisagree s).port p = s.port p := State.port_congr (by simp) (by simp) p
  have hon (x : Option Port) : (s0.clearDisagree s).steeringOn x = s.steeringOn x := by
    cases x with
    | none => rfl
    | some p => simp only [State.steeringOn, State.qualified_congr (congrArg RefPort.st (hport p))]
  have henter (p : Port) : ((s0.clearDisagree s).enterLocked p).tb = (s.enterLocked p).tb := by
    simp [State.enterLocked, hport]
  rw [State.portsMoved_eq, State.select_tb_eq, State.select_tb_eq]
  simp only [State.clearDisagree_frame, hsel.1, hon, henter]

/-! ## The selection where no port but one moved (R54, R55) -/

section

variable {s0 s : State} {p : Port}

/-- Beside port `p` no port moved between `s0` and `s`. -/
def State.OthersStay (s0 s : State) (p : Port) : Prop := s.port p.other = s0.port p.other

theorem State.OthersStay.other (h : s0.OthersStay s p) :
    s0.leftQualified s p.other = false ∧ s0.becameQualified s p.other = false := by
  have hq : s.qualified p.other = s0.qualified p.other := State.qualified_congr (congrArg RefPort.st h)
  simp [State.leftQualified, State.becameQualified, hq]

/-- With no port's qualification changed the selection stays. -/
theorem State.autoSelection_stays (h : ∀ q, s.qualified q = s0.qualified q) :
    s0.autoSelection s = s.sel.selection := by
  unfold State.autoSelection
  split
  · simp_all
  · simp_all [State.leftQualified]
  · simp_all [State.becameQualified]

theorem State.OthersStay.autoSelection_same (h : s0.OthersStay s p) (hq : s.qualified p = s0.qualified p) :
    s0.autoSelection s = s.sel.selection :=
  State.autoSelection_stays fun q => by
    rcases Port.eq_or_other p q with rfl | rfl
    · exact hq
    · exact State.qualified_congr (congrArg RefPort.st h)

theorem State.OthersStay.autoSelection_lost (h : s0.OthersStay s p) (h0 : s0.qualified p = true)
    (h1 : s.qualified p = false) :
    s0.autoSelection s = if s.sel.mode = .auto ∧ s.sel.selection = some p then
      (if s.qualified p.other then some p.other else none) else s.sel.selection := by
  obtain ⟨hleft, hbecame⟩ := h.other
  have hp : s0.leftQualified s p = true ∧ s0.becameQualified s p = false := by
    simp [State.leftQualified, State.becameQualified, h0, h1]
  have hnone (q : Port) : s0.becameQualified s q = false := by
    rcases Port.eq_or_other p q with rfl | rfl
    · exact hp.2
    · exact hbecame
  unfold State.autoSelection
  split
  case h_1 hm _ => simp_all
  case h_2 q hm hs =>
    rcases Port.eq_or_other p q with rfl | rfl
    · simp [hm, hs, hp.1]
    · have hne : p.other ≠ p := by cases p <;> simp [Port.other]
      simp [hs, hleft, hne]
  case h_3 hm hs => simp [hnone, hs]

theorem State.OthersStay.autoSelection_gained (h : s0.OthersStay s p) (h0 : s0.qualified p = false)
    (h1 : s.qualified p = true) :
    s0.autoSelection s =
      if s.sel.mode = .auto ∧ s.sel.selection = none then some p else s.sel.selection := by
  obtain ⟨hleft, hbecame⟩ := h.other
  have hp : s0.leftQualified s p = false ∧ s0.becameQualified s p = true := by
    simp [State.leftQualified, State.becameQualified, h0, h1]
  have hnone (q : Port) : s0.leftQualified s q = false := by
    rcases Port.eq_or_other p q with rfl | rfl
    · exact hp.1
    · exact hleft
  unfold State.autoSelection
  split
  case h_1 hm _ => simp_all
  case h_2 q hm hs => simp [hs, hnone]
  case h_3 hm hs => cases p <;> simp_all [Port.other]

end

/-! ## A port that leaves QUALIFIED (R31, R54, R55) -/

/-- A selection that steers nothing. -/
theorem State.select_unsteers {s : State} {x : Option Port} (h : s.steeringOn x = none) :
    s.Unsteered (s.select x) := by
  cases ht : s.tb.timeSet with
  | true =>
    have htb := State.select_tb_set ht x
    rw [h] at htb
    by_cases hd : s.tb.disc = .locked
    · have hleft : (s.select x).tb = s.tb.leaveLocked := htb.trans (if_pos hd)
      refine ⟨fun _ => ⟨fun _ => ?_, fun hne => absurd hd hne⟩, fun hf => ?_⟩
      · rw [hleft]
        exact ⟨rfl, fun hv => if_pos hv, rfl⟩
      · rw [hleft] at hf
        exact absurd (ht.symm.trans hf) (by decide)
    · have hstay : (s.select x).tb = s.tb := htb.trans (if_neg hd)
      exact ⟨fun _ => ⟨fun hl => absurd hl hd, fun _ => by rw [hstay]⟩, fun hf => by
        rw [hstay] at hf
        exact absurd (ht.symm.trans hf) (by decide)⟩
  | false =>
    have htb := State.select_tb_unset ht x
    rw [h] at htb
    refine ⟨fun hset => ?_, fun _ => by rw [htb]⟩
    rw [htb] at hset
    exact absurd (ht.symm.trans hset) (by decide)

/-- A new selection that steers: LOCKED is entered with the check of R33, or acquisition waits on it. -/
theorem State.select_steers {s : State} {x : Option Port} {p : Port} (h : s.steeringOn x = some p)
    (hnew : s.tb.disc ≠ .locked ∨ x ≠ s.sel.selection) :
    (s.tb.timeSet = true → (s.select x).tb = (s.enterLocked p).tb) ∧
      (s.tb.timeSet = false → (s.select x).tb = { s.tb with acq := some p }) := by
  refine ⟨fun ht => ?_, fun ht => ?_⟩
  · rw [State.select_tb_set ht, h]
    exact if_neg (by rcases hnew with hd | hx <;> simp [*])
  · rw [State.select_tb_unset ht, h]

theorem Keyer.not_timeCode_of_not_near {k : Keyer} (h : k.nearTimeCode = false) : k.mode ≠ .timeCode := by
  intro hm
  simp [Keyer.nearTimeCode, hm] at h

/-- The state of the port that left counts for nothing in what the selection makes of its leaving. -/
theorem State.portsMoved_loses {s0 s : State} {p : Port} (h : s0.OthersStay s p) (h0 : s0.qualified p = true)
    (h1 : s.qualified p = false) :
    s.LosesPort (s0.portsMoved s) p ∧ (s0.portsMoved s).sel.disagree = false := by
  have hauto := h.autoSelection_lost h0 h1
  have hviews := s0.portsMoved_views s
  have htb := s0.portsMoved_tb_eq s
  have hsel : (s0.portsMoved s).sel.selection = s0.autoSelection s := by rw [State.portsMoved_sel]
  have hkept (hstay : s0.autoSelection s = s.sel.selection) : s.SelectionKept (s0.portsMoved s) :=
    ⟨hsel.trans hstay, hviews.trans (if_neg (by simp [hstay]))⟩
  have hunsteered (hnone : s.steeringOn (s0.autoSelection s) = none) : s.Unsteered (s0.portsMoved s) := by
    rw [State.Unsteered, htb]
    exact State.select_unsteers hnone
  have hne : some p.other ≠ some p := by cases p <;> simp [Port.other]
  refine ⟨⟨fun hno => hkept ?_, fun heq hm => ⟨hkept ?_, hunsteered ?_⟩, fun heq hm => ?_⟩, ?_⟩
  · rw [hauto, if_neg (by simp [hno])]
  · rw [hauto, if_neg (by simp [hm])]
  · rw [hauto, if_neg (by simp [hm]), heq]
    simp [State.steeringOn, h1]
  · rw [if_pos ⟨hm, heq⟩] at hauto
    refine ⟨State.views_of_raised (hviews.trans (if_pos ?_)), fun hq => ?_, fun hq => ?_⟩
    · rw [hauto, heq]
      split
      · exact hne.symm
      · simp
    · have hother : s.qualified p.other = true := by simp [State.qualified, hq]
      rw [if_pos hother] at hauto
      have hon : s.steeringOn (s0.autoSelection s) = some p.other := by simp [hauto, State.steeringOn, hother]
      obtain ⟨hset, hunset⟩ := State.select_steers hon (.inr (by rw [hauto, heq]; exact hne))
      rw [← htb] at hset hunset
      refine ⟨hsel.trans hauto, fun ht => ?_, fun ht => ?_⟩
      · rw [hset (by simpa using ht)]
        refine ⟨rfl, rfl, ?_⟩
        simp only [State.enterLocked, State.portsMoved_frame, Bool.and_eq_true, decide_eq_true_eq,
          Bool.not_eq_true']
        exact ⟨fun hs => ⟨hs.1, hs.2, Keyer.not_timeCode_of_not_near hs.2⟩, fun hs => ⟨hs.1, hs.2.1⟩⟩
      · rw [hunset (by simpa using ht)]
    · have hother : s.qualified p.other = false := by simpa [State.qualified] using hq
      rw [if_neg (by simp [hother])] at hauto
      exact ⟨hsel.trans hauto, hunsteered (by rw [hauto]; rfl)⟩
  · rw [State.portsMoved_sel]
    exact State.clearDisagree_left (p := p) (by simp [State.leftQualified, h0, h1])

/-- With no port's qualification changed the selector and its event stay. -/
theorem State.portsMoved_stays {s0 s : State} (h : ∀ q, s.qualified q = s0.qualified q) :
    (s0.portsMoved s).sel = s.sel ∧ (s0.portsMoved s).cond = s.cond := by
  have hauto := State.autoSelection_stays h
  have hclear : s0.clearDisagree s = s := State.clearDisagree_stays fun q => by simp [State.leftQualified, h]
  constructor
  · rw [State.portsMoved_sel, hclear, hauto]
  · rw [State.portsMoved_cond, hauto]
    simp [State.raiseIf]

/-- What the selection's consequences are read from, before the event and after it. -/
def State.SelectionSeen (s s' t t' : State) (p : Port) : Prop :=
  ((s'.sel, s'.views 15), (s'.tb.disc, s'.port p.other), (s'.params, s'.key)) =
    ((s.sel, s.views 15), (s.tb.disc, s.port p.other), (s.params, s.key)) ∧
  (t'.tb, t'.sel, t'.views 15, t'.key) = (t.tb, t.sel, t.views 15, t.key)

theorem State.LosesPort.congr {s s' t t' : State} {p : Port} (h : s.LosesPort t p)
    (hseen : s.SelectionSeen s' t t' p) : s'.LosesPort t' p := by
  obtain ⟨hs, ht⟩ := hseen
  simp only [Prod.mk.injEq] at hs ht
  obtain ⟨⟨hsel, hview⟩, ⟨hdisc, hport⟩, hparams, hkey⟩ := hs
  obtain ⟨htb', hsel', hview', hkey'⟩ := ht
  have hkept : s'.SelectionKept t' ↔ s.SelectionKept t := by
    have hv : t'.views 15 = s'.views 15 ↔ t.views 15 = s.views 15 := by rw [hview, hview']
    unfold State.SelectionKept
    rw [hsel, hsel']
    exact and_congr_right fun _ => hv
  have hunsteered : s'.Unsteered t' ↔ s.Unsteered t := by
    unfold State.Unsteered
    rw [hdisc, htb']
  have hswitched : t'.Switched ↔ t.Switched := by
    have hv := Prod.mk.injEq .. ▸ hview'
    unfold State.Switched
    rw [hv.1, hv.2]
  unfold State.LosesPort at h ⊢
  rw [hkept, hunsteered, hswitched, hsel, hsel', hport, hparams, hkey, hkey', htb']
  exact h

/-! ## PULSE_WATCH_EXPIRY (R46) -/

/-- The state whose ports the watch's expiry has moved. -/
def State.watchedOut (s : State) (p : Port) (at_ : Nat) : State :=
  (s.waitUntil at_).movePort p ((s.port p).watchOut (max s.now at_))

theorem State.exec_pulseWatchExpiry {s : State} {p : Port} (hp : s.por = false)
    (h : (s.port p).watch = some at_) : exec (.pulseWatchExpiry p) s =
      .next ((s.waitUntil at_).portsMoved (s.watchedOut p at_)).settle := by
  have hport : (s.waitUntil at_).port p = s.port p := by cases p <;> rfl
  simp only [exec, execPulseWatchExpiry, h, hp, hport]
  rfl

theorem State.watchedOut_stays (s : State) (p : Port) (at_ : Nat) :
    (s.waitUntil at_).OthersStay (s.watchedOut p at_) p := (State.movePort_ports _ p _).2.2.2

theorem State.movePort_live (s : State) (p : Port) (r : RefPort) :
    (s.movePort p r).cond.live[(refDisqualify p).id] =
      if (s.port p).st = .qualified ∧ r.st ≠ .qualified then
        min counterMax (s.cond.live[(refDisqualify p).id] + 1) else s.cond.live[(refDisqualify p).id] := by
  have hleft : s.leftQualified (s.setPort p r) p = true ↔ (s.port p).st = .qualified ∧ r.st ≠ .qualified := by
    simp [State.leftQualified, State.qualified]
  unfold State.movePort
  extract_lets s1
  split
  case isTrue hc =>
    rw [if_pos (hleft.mp hc)]
    have hcond : s1.cond = s.cond := by simp [s1]
    exact (s1.count_live (refDisqualify p) 1).trans (by rw [hcond])
  case isFalse hc =>
    rw [if_neg (mt hleft.mpr hc)]
    simp [s1]

theorem State.movePort_views (s : State) (p : Port) (r : RefPort) (i : Nat) :
    (s.movePort p r).views i = s.views i := by
  unfold State.movePort
  extract_lets s1
  have hcond : s1.cond = s.cond := by simp [s1]
  split
  · exact (s1.count_views _ 1 i).trans (State.views_congr hcond i)
  · exact State.views_congr hcond i

end Sys2Proof.Machine

namespace Sys2Proof

open Sys2Proof.Machine

/-- Settles O29: the second expiry in a row takes the port to ABSENT, and the selector and the timebase make
of that what they make of any port's leaving QUALIFIED. -/
theorem pulseWatchLosesThePort : Obligations.PulseWatchLosesThePort := by
  intro p at_ s hp hw
  have hx := State.exec_pulseWatchExpiry hp hw
  have hstay := s.watchedOut_stays p at_
  have hport0 : (s.waitUntil at_).port p = s.port p := by cases p <;> rfl
  have hports (q : Port) : ((s.waitUntil at_).portsMoved (s.watchedOut p at_)).settle.port q =
      (s.watchedOut p at_).port q :=
    State.port_congr (by simp) (by simp) q
  have hport := (hports p).trans (State.movePort_ports (s.waitUntil at_) p _).2.2.1
  have hother : ((s.waitUntil at_).portsMoved (s.watchedOut p at_)).settle.port p.other = s.port p.other :=
    (hports p.other).trans (hstay.trans (by cases p <;> rfl))
  have hview : ((s.waitUntil at_).portsMoved (s.watchedOut p at_)).settle.views 15 =
      ((s.waitUntil at_).portsMoved (s.watchedOut p at_)).views 15 := State.settle_views _ (by decide)
  have hmoved : (s.watchedOut p at_).views 15 = s.views 15 := State.movePort_views _ _ _ _
  have hfirst (h : (s.port p).missed = 0) : (s.port p).watchOut (max s.now at_) =
      { s.port p with missed := 1, waiting := none, watch := some (max s.now at_ + 10000000) } := by
    simp [RefPort.watchOut, h]
  have hsecond (h : (s.port p).missed = 1) : (s.port p).watchOut (max s.now at_) =
      { ({ s.port p with waiting := none } : RefPort).moveTo .absent with
        missed := 2, watch := none, lastPulse := none } := by
    simp [RefPort.watchOut, h, RefPort.moveTo]
  refine ⟨_, hx, ?_, ?_, hother, fun hm => ?_, fun hm => ?_, fun hm => ?_, ?_⟩
  · simp [State.watchedOut, State.waitUntil]
  · rw [hport]
    unfold RefPort.watchOut
    extract_lets r1
    split <;> rfl
  · rw [hport, hfirst hm]
    exact ⟨rfl, rfl, rfl⟩
  · rw [hport, hsecond hm]
    refine ⟨rfl, rfl, rfl, rfl, rfl, ?_, fun hq => ?_⟩
    · have hlive : ((s.waitUntil at_).portsMoved (s.watchedOut p at_)).settle.cond.live =
          (s.watchedOut p at_).cond.live := State.portsMoved_live _ _
      have hcount := (s.waitUntil at_).movePort_live p ((s.port p).watchOut (max s.now at_))
      rw [hport0, hsecond hm] at hcount
      rw [hlive, State.watchedOut, hsecond hm, hcount]
      simp [RefPort.moveTo, State.waitUntil, counterMax]
    · have h0 : (s.waitUntil at_).qualified p = true := by simp [State.qualified, hport0, hq]
      have h1 : (s.watchedOut p at_).qualified p = false := by
        simp [State.qualified, State.watchedOut, hsecond hm, RefPort.moveTo]
      obtain ⟨hloses, hdisagree⟩ := State.portsMoved_loses hstay h0 h1
      refine ⟨hloses.congr ⟨?_, ?_⟩, hdisagree⟩
      · rw [hmoved]
        simp [State.watchedOut, State.waitUntil]
        cases p <;> rfl
      · simp only [hview]
        simp
  · have hq (q : Port) : (s.watchedOut p at_).qualified q = (s.waitUntil at_).qualified q := by
      rcases Port.eq_or_other p q with rfl | rfl
      · refine Bool.eq_iff_iff.mpr ?_
        rcases hm with h0 | hne
        · simp [State.qualified, State.watchedOut, hfirst h0, hport0]
        · have hafter : ((s.port q).watchOut (max s.now at_)).st ≠ .qualified := by
            unfold RefPort.watchOut
            extract_lets r1
            split
            · exact hne
            · exact (by decide : PortState.absent ≠ .qualified)
          simp [State.qualified, State.watchedOut, hport0, hne, hafter]
      · exact State.qualified_congr (congrArg RefPort.st hstay)
    obtain ⟨hsel, hcond⟩ := State.portsMoved_stays hq
    have hsel' : ((s.waitUntil at_).portsMoved (s.watchedOut p at_)).settle.sel = s.sel := by
      refine hsel.trans ?_
      simp [State.watchedOut, State.waitUntil]
    exact ⟨hsel', by rw [hsel'], hview.trans ((State.views_congr hcond 15).trans hmoved)⟩
  · apply State.ext <;> simp [State.watchedOut]

end Sys2Proof

/-! The requests to the references (R50, R51, R53, R56, R57, R58). -/

namespace Sys2Proof.Machine

/-! ## What the octets of the requests stand for -/

theorem refChoiceOf_none {o : Octet} (h : 2 < o.toNat) : refChoiceOf o = none := by
  obtain ⟨n, hn⟩ : ∃ n, o.toNat = n + 3 := ⟨o.toNat - 3, by omega⟩
  simp [refChoiceOf, hn]

theorem selectModeOf_none {o : Octet} (h : 1 < o.toNat) : selectModeOf o = none := by
  obtain ⟨n, hn⟩ : ∃ n, o.toNat = n + 2 := ⟨o.toNat - 2, by omega⟩
  simp [selectModeOf, hn]

theorem portOf_none {o : Octet} (h : o = 0 ∨ 2 < o.toNat) : portOf o = none := by
  rcases h with rfl | h
  · rfl
  · obtain ⟨n, hn⟩ : ∃ n, o.toNat = n + 3 := ⟨o.toNat - 3, by omega⟩
    simp [portOf, hn]

/-- The octet that names a port. -/
def portOctet : Port → Octet
  | .p1 => 1
  | .p2 => 2

theorem portOf_octet (p : Port) : portOf (portOctet p) = some p := by cases p <;> rfl

theorem refChoiceOf_octet (p : Port) : refChoiceOf (portOctet p) = some (some p) := by cases p <;> rfl

/-! ## A selection made by a request (R53) -/

/-- REF_SWITCH is raised exactly if the selection changes. -/
theorem State.select_switched (s : State) (x : Option Port) :
    ((s.select x).sel.selection = s.sel.selection → (s.select x).cond = s.cond) ∧
      ((s.select x).sel.selection ≠ s.sel.selection →
        (s.select x).cond.viewA.getLsbD 15 = true ∧ (s.select x).cond.viewB.getLsbD 15 = true) := by
  rw [State.select_sel, State.select_cond]
  refine ⟨fun h => ?_, fun h => State.views_of_raised (s := s.raiseIf (s.sel.selection ≠ x) .refSwitch) ?_⟩
  · have hx : x = s.sel.selection := h
    simp [hx, State.raiseIf]
  · exact (s.raiseIf_views_self _ .refSwitch).trans (if_pos (by simpa using Ne.symm h))

section

variable {s : State}

theorem actSelectReference_bad {o : Octet} (h : 2 < o.toNat) : actSelectReference o s = .plain .badArgument s := by
  rw [actSelectReference, refChoiceOf_none h]

theorem actSelectReference_notReady {p : Port} (h : (s.port p).st ≠ .qualified) :
    actSelectReference (portOctet p) s = .plain .notReady s := by
  rw [actSelectReference, refChoiceOf_octet]
  exact if_pos (by simpa [State.qualified] using h)

theorem actSelectReference_port {p : Port} (h : (s.port p).st = .qualified) :
    actSelectReference (portOctet p) s =
      .plain .ok ({ s with sel := { s.sel with manual := some p } }.select (some p)) := by
  rw [actSelectReference, refChoiceOf_octet]
  exact if_neg (by simp [State.qualified, h])

theorem actSelectReference_none : actSelectReference 0 s =
    .plain .ok ({ s with sel := { s.sel with manual := none } }.select none) := rfl

theorem actSetSelectMode_bad {o : Octet} (h : 1 < o.toNat) : actSetSelectMode o s = .plain .badArgument s := by
  rw [actSetSelectMode, selectModeOf_none h]

theorem actSetSelectMode_same : actSetSelectMode (if s.sel.mode = .auto then 0 else 1) s = .plain .ok s := by
  cases h : s.sel.mode <;> simp [actSetSelectMode, selectModeOf, h]

theorem actSetSelectMode_manual (h : s.sel.mode = .auto) : actSetSelectMode 1 s =
    .plain .ok ({ s with sel := { s.sel with mode := .manual, manual := s.selectionForManual } }.select
      s.selectionForManual) := by
  simp [actSetSelectMode, selectModeOf, h]

theorem actSetSelectMode_auto (h : s.sel.mode = .manual) : actSetSelectMode 0 s =
    .plain .ok ({ s with sel := { s.sel with mode := .auto } }.select s.selectionForAuto) := by
  simp [actSetSelectMode, selectModeOf, h]

theorem State.selectionForManual_eq (s : State) : s.selectionForManual = (match s.sel.manual with
    | some p => if (s.port p).st = .qualified then some p else s.sel.selection
    | none => s.sel.selection) := by
  simp only [State.selectionForManual, State.qualified, decide_eq_true_eq] <;> rfl

theorem State.selectionForAuto_steering {p : Port} (h : s.sel.selection = some p)
    (hq : (s.port p).st = .qualified) : s.selectionForAuto = some p := by
  simp [State.selectionForAuto, State.steering, h, State.qualified, hq]

theorem State.selectionForAuto_none (h : ∀ p, s.sel.selection = some p → (s.port p).st ≠ .qualified) :
    s.selectionForAuto = if s.ref1.st = .qualified then some .p1
      else if s.ref2.st = .qualified then some .p2 else none := by
  have hsteer : s.steering = none := by
    unfold State.steering
    split
    · rfl
    case h_2 p hp => simp [State.qualified, h p hp]
  rw [State.selectionForAuto, hsteer]
  simp only [State.qualified, decide_eq_true_eq]
  rfl

theorem actSetRefEnable_bad {o b : Octet} (h : o = 0 ∨ 2 < o.toNat ∨ 1 < b.toNat) :
    actSetRefEnable o b s = .plain .badArgument s := by
  unfold actSetRefEnable
  by_cases hb : 1 < b.toNat
  · rw [settingOf_none hb]
    split <;> simp_all
  · rw [portOf_none (h.imp_right fun h => h.resolve_right hb)]

theorem actSetRefEnable_on {p : Port} : actSetRefEnable (portOctet p) 1 s =
    if (s.port p).enable then .plain .ok s else .plain .ok (s.setPort p (s.port p).turnOn) := by
  rw [actSetRefEnable, portOf_octet]
  rfl

theorem actSetRefEnable_off {p : Port} : actSetRefEnable (portOctet p) 0 s =
    if s.sel.selection = some p then .plain .inUse s
    else if (s.port p).enable then .plain .ok (s.portsMoved (s.movePort p (s.port p).turnOff))
    else .plain .ok s := by
  rw [actSetRefEnable, portOf_octet]
  rfl

end

/-- REF_SWITCH is raised between `s` and `x` exactly if the selection changes. -/
def State.SwitchRaised (s x : State) : Prop :=
  (x.sel.selection = s.sel.selection → x.cond = s.cond) ∧
    (x.sel.selection ≠ s.sel.selection → x.cond.viewA.getLsbD 15 = true ∧ x.cond.viewB.getLsbD 15 = true)

/-- A request answered by a selection. -/
theorem State.answersWith_select {s : State} {c : Instr} {l : Link} {q : Request} {act : State → Acted}
    {v : Selector} {x : Option Port} (ht : s.takesUp c = true) (hc : c.asRequest = some (l, q))
    (hx : ∀ s, exec c s = .next (s.request l q act)) (hv : v.selection = s.sel.selection)
    (ha : act { s with exe := s.exe.serve l } =
      .plain .ok ({ s with exe := s.exe.serve l, sel := v }.select x)) :
    ∃ y, s.AnswersWith c .ok [] y ∧ y.sel = { v with selection := x } ∧ s.SwitchRaised y ∧
      y = { s with tb := y.tb, sel := y.sel, cond := y.cond } := by
  obtain ⟨hsame, hother⟩ := State.select_switched { s with exe := s.exe.serve l, sel := v } x
  refine ⟨_, State.answersWith_turn ht hc hx rfl ha (by simp), State.select_sel _ x, ⟨fun h => ?_, fun h => ?_⟩, ?_⟩
  · exact hsame (h.trans hv.symm)
  · exact hother fun hs => h (hs.trans hv)
  · apply State.ext <;> simp

/-! ## A port turned off (R51) -/

/-- A steered timebase stays where the selection and what it steers by stay. -/
theorem State.Steered.portsMoved_tb {s x : State} (h : s.Steered) (htb : x.tb = s.tb)
    (hauto : s.autoSelection x = x.sel.selection) (hon : x.steeringOn x.sel.selection = s.steering) :
    (s.portsMoved x).tb = s.tb := by
  have hlocked := h.locked
  have hacq := h.acquiring
  rw [State.portsMoved_tb_eq, hauto, State.select_tb_eq, hon, htb]
  cases ht : s.tb.timeSet with
  | true =>
    rw [if_pos rfl]
    cases hs : s.steering with
    | none => exact if_neg fun hd => by simpa [hs] using (hlocked.mp hd).2
    | some q => exact if_pos (by simp [hlocked.mpr ⟨ht, by simp [hs]⟩])
  | false =>
    rw [ht] at hacq
    rw [if_neg (by simp)]
    simp only [Bool.false_eq_true, if_false] at hacq
    rw [← hacq]

/-- The state whose port `p` has been turned off. -/
def State.turnedOff (s : State) (p : Port) : State := s.portsMoved (s.movePort p (s.port p).turnOff)

section

variable {s : State} {p : Port}

theorem State.movePort_stays (s : State) (p : Port) (r : RefPort) : s.OthersStay (s.movePort p r) p :=
  (State.movePort_ports s p r).2.2.2

theorem State.turnOff_notQualified (s : State) (p : Port) :
    (s.movePort p (s.port p).turnOff).qualified p = false := by
  simp [State.qualified, RefPort.turnOff, RefPort.moveTo]

/-- A port that is not selected is turned off without moving the selection. -/
theorem State.turnOff_autoSelection (hs : s.sel.selection ≠ some p) :
    s.autoSelection (s.movePort p (s.port p).turnOff) = s.sel.selection := by
  have hstay := s.movePort_stays p (s.port p).turnOff
  have h1 := s.turnOff_notQualified p
  cases hq : s.qualified p with
  | true => rw [hstay.autoSelection_lost hq h1, if_neg (by simp [hs])]; simp
  | false => rw [hstay.autoSelection_same (by rw [h1, hq])]; simp

theorem State.turnedOff_port (s : State) (p : Port) :
    (s.turnedOff p).port p = (s.port p).turnOff ∧ (s.turnedOff p).port p.other = s.port p.other := by
  have hafter (q : Port) : (s.turnedOff p).port q = (s.movePort p (s.port p).turnOff).port q :=
    State.port_congr (by simp [State.turnedOff]) (by simp [State.turnedOff]) q
  simp [hafter]

theorem State.turnedOff_sel (hs : s.sel.selection ≠ some p) :
    ((s.turnedOff p).sel.mode, (s.turnedOff p).sel.selection, (s.turnedOff p).sel.manual) =
      (s.sel.mode, s.sel.selection, s.sel.manual) := by
  have hclear := s.clearDisagree_selection (s.movePort p (s.port p).turnOff)
  simp only [Prod.mk.injEq] at hclear
  rw [State.turnedOff, State.portsMoved_sel, State.turnOff_autoSelection hs]
  simp [hclear]

theorem State.turnedOff_cond (hs : s.sel.selection ≠ some p) :
    (s.turnedOff p).cond = (s.movePort p (s.port p).turnOff).cond := by
  rw [State.turnedOff, State.portsMoved_cond, State.turnOff_autoSelection hs]
  simp [State.raiseIf]

theorem State.turnedOff_unqualified (hq : (s.port p).st ≠ .qualified) :
    (s.turnedOff p).sel = s.sel ∧ (s.turnedOff p).cond = s.cond := by
  have h0 : s.qualified p = false := by simpa [State.qualified] using hq
  obtain ⟨hsel, hcond⟩ := State.portsMoved_stays (s0 := s) (s := s.movePort p (s.port p).turnOff) fun q => by
    rcases Port.eq_or_other p q with rfl | rfl
    · rw [s.turnOff_notQualified, h0]
    · exact State.qualified_congr (congrArg RefPort.st (s.movePort_stays p _))
  refine ⟨hsel.trans (by simp), hcond.trans ?_⟩
  simp [State.movePort, State.leftQualified, h0]

theorem State.turnedOff_qualified (hs : s.sel.selection ≠ some p) (hq : (s.port p).st = .qualified) :
    (s.turnedOff p).sel.disagree = false ∧ (s.turnedOff p).cond = (s.count (refDisqualify p) 1).cond := by
  have h0 : s.qualified p = true := by simp [State.qualified, hq]
  refine ⟨(State.portsMoved_loses (s.movePort_stays p _) h0 (s.turnOff_notQualified p)).2, ?_⟩
  rw [State.turnedOff_cond hs]
  simp [State.movePort, State.leftQualified, State.qualified, hq, RefPort.turnOff, RefPort.moveTo, State.count]

theorem State.turnedOff_tb (hs : s.sel.selection ≠ some p) (h : s.Steered) : (s.turnedOff p).tb = s.tb := by
  refine h.portsMoved_tb (by simp) ((State.turnOff_autoSelection hs).trans (by simp)) ?_
  simp only [State.movePort_frame, State.steering, State.steeringOn]
  cases hsel : s.sel.selection with
  | none => rfl
  | some q =>
    rcases Port.eq_or_other p q with rfl | rfl
    · exact absurd hsel hs
    · simp only [State.qualified_congr (congrArg RefPort.st (s.movePort_stays p (s.port p).turnOff))]

end

end Sys2Proof.Machine

namespace Sys2Proof

open Sys2Proof.Machine

/-- Settles O30: the requests select, or turn a port off as any port leaves QUALIFIED. -/
theorem referenceRequestsSelect : Obligations.ReferenceRequestsSelect := by
  unfold Obligations.ReferenceRequestsSelect
  refine ⟨fun l tag choice s ht => ?choose, fun l tag mode s ht => ?mode, fun l tag port setting s ht => ?enable⟩
  case choose =>
    refine ⟨fun h => State.answers_reading ht rfl (fun _ => rfl) (actSelectReference_bad h),
      fun p hp => ?_, fun h0 => ?_⟩
    · obtain rfl : choice = portOctet p := hp
      refine ⟨fun h => State.answers_reading ht rfl (fun _ => rfl) (actSelectReference_notReady ?_), fun h => ?_⟩
      · cases p <;> exact h
      · exact State.answersWith_select (v := { s.sel with manual := some p }) ht rfl (fun _ => rfl) rfl
          (actSelectReference_port (by cases p <;> exact h))
    · subst h0
      exact State.answersWith_select (v := { s.sel with manual := none }) ht rfl (fun _ => rfl) rfl
        actSelectReference_none
  case mode =>
    refine ⟨fun h => State.answers_reading ht rfl (fun _ => rfl) (actSetSelectMode_bad h), fun h => ?_,
      fun h hm => ?_, fun h hm => ?_⟩
    · subst h
      exact State.answers_reading ht rfl (fun _ => rfl)
        (actSetSelectMode_same (s := { s with exe := s.exe.serve l }))
    · subst h
      obtain ⟨x, hx, hsel, hswitch, hrest⟩ := State.answersWith_select
        (v := { s.sel with mode := .manual, manual := s.selectionForManual }) ht rfl (fun _ => rfl) rfl
        (actSetSelectMode_manual (s := { s with exe := s.exe.serve l }) hm)
      exact ⟨x, s.selectionForManual, hx, hsel, hswitch, hrest, s.selectionForManual_eq⟩
    · subst h
      obtain ⟨x, hx, hsel, hswitch, hrest⟩ := State.answersWith_select
        (v := { s.sel with mode := .auto }) ht rfl (fun _ => rfl) rfl
        (actSetSelectMode_auto (s := { s with exe := s.exe.serve l }) hm)
      exact ⟨x, s.selectionForAuto, hx, hsel, hswitch, hrest, fun p => State.selectionForAuto_steering,
        State.selectionForAuto_none⟩
  case enable =>
    refine ⟨fun h => State.answers_reading ht rfl (fun _ => rfl) (actSetRefEnable_bad h), fun p hp => ?_⟩
    obtain rfl : port = portOctet p := hp
    have hport (e : Executor) : { s with exe := e }.port p = s.port p := by cases p <;> rfl
    refine ⟨fun h he => ?_, fun h he => ?_, fun h hs => ?_, fun h hs he => ?_, fun h hs he => ?_⟩ <;> subst h
    · exact State.answers_reading ht rfl (fun _ => rfl)
        (actSetRefEnable_on.trans (if_pos (by rw [hport, he])))
    · refine State.answers_of ht rfl (fun _ => rfl) ((actSetRefEnable_on.trans (if_neg ?_)).trans ?_)
      · rw [hport, he]
        decide
      · rfl
    · exact State.answers_reading ht rfl (fun _ => rfl) (actSetRefEnable_off.trans (if_pos hs))
    · exact State.answers_reading ht rfl (fun _ => rfl)
        (actSetRefEnable_off.trans ((if_neg hs).trans (if_neg (by rw [hport, he]; decide))))
    · generalize hs' : ({ s with exe := s.exe.serve l } : State) = s'
      have hact : actSetRefEnable (portOctet p) 0 s' = .plain .ok (s'.turnedOff p) := by
        subst hs'
        exact actSetRefEnable_off.trans ((if_neg hs).trans (if_pos (by rw [hport, he])))
      have hsel : s'.sel = s.sel := by rw [← hs']
      have hcond : s'.cond = s.cond := by rw [← hs']
      have hport' (q : Port) : s'.port q = s.port q := by subst hs'; cases q <;> rfl
      rw [← hsel] at hs
      obtain ⟨hp, ho⟩ := s'.turnedOff_port p
      refine ⟨_, State.answersWith_turn ht rfl (fun _ => rfl) hs' hact ?_, ?_, fun hst => ?_, ?_, ?_,
        fun hq => ?_, fun hq => ?_, ?_⟩
      · simp [State.turnedOff]
      · refine (State.port_congr rfl rfl p).trans (hp.trans ?_)
        rw [hport']
        rfl
      · have hst' : s'.Steered := by
          subst hs'
          exact ⟨hst.ref1, hst.ref2, hst.locked, hst.unset, hst.acquiring, hst.step⟩
        exact (State.turnedOff_tb hs hst').trans (by rw [← hs'])
      · exact (State.port_congr rfl rfl p.other).trans (ho.trans (hport' _))
      · exact (State.turnedOff_sel hs).trans (by rw [hsel])
      · obtain ⟨hkeep, hquiet⟩ := State.turnedOff_unqualified (s := s') (p := p) (by rw [hport']; exact hq)
        exact ⟨hkeep.trans hsel, hquiet.trans hcond⟩
      · obtain ⟨hdisagree, hcount⟩ := State.turnedOff_qualified hs (by rw [hport']; exact hq)
        exact ⟨hdisagree, hcount.trans (by simp [State.count, hcond])⟩
      · apply State.ext <;> simp [State.turnedOff, ← hs']

end Sys2Proof

/-! What a pulse does to the timebase (R28, R29, R34, R36). -/

namespace Sys2Proof.Machine

/-! ## Which of its four effects a pulse has -/

section

variable {s : State} {p : Port} {dt : Nat}

theorem State.pulseTaken_tb (s : State) (p : Port) (dt : Nat) :
    (s.pulseTaken p dt).tb = s.tb ∧ (s.pulseTaken p dt).sel = s.sel ∧
      (s.pulseTaken p dt).params = s.params ∧ (s.pulseTaken p dt).cond = s.cond ∧
      (s.pulseTaken p dt).now = s.now + dt ∧ (s.pulseTaken p dt).mon = s.mon ∧
      (s.pulseTaken p dt).key = s.key := by
  simp [State.pulseTaken]

theorem State.pulsePushed_frame (s : State) (p : Port) (dt : Nat) :
    ((s.pulseTaken p dt).pushOpen p (s.pulseIn p dt)).tb = s.tb ∧
      ((s.pulseTaken p dt).pushOpen p (s.pulseIn p dt)).now = s.now + dt ∧
      ((s.pulseTaken p dt).pushOpen p (s.pulseIn p dt)).mon = s.mon := by
  simp [State.pulseTaken]

theorem State.pulseIn_now (s : State) (p : Port) (dt : Nat) :
    (s.pulseIn p dt).at_ = (s.pulseTaken p dt).now := by
  simp [State.pulseTaken, State.pulseIn, RefPort.openPulse]

/-- A pulse acquires the time exactly by a waiting label in SET's range, while its port is waited on. -/
theorem State.acquisitionLabel_iff (x : Label) :
    (s.pulseTaken p dt).acquisitionLabel p (s.pulseIn p dt) = some x ↔
      s.tb.timeSet = false ∧ s.tb.acq = some p ∧ (s.port p).waiting = some x ∧ x.sec ≤ 86399 := by
  have htb := (s.pulseTaken_tb p dt).1
  simp only [State.acquisitionLabel, State.pulseIn, RefPort.openPulse, htb, Bool.and_eq_true,
    Bool.not_eq_true', decide_eq_true_eq]
  constructor
  · intro h
    split at h
    case isTrue hc =>
      split at h
      case h_1 y hy =>
        split at h
        · obtain rfl := Option.some.inj h
          exact ⟨hc.1, hc.2, hy, by assumption⟩
        · cases h
      case h_2 => cases h
    case isFalse => cases h
  · rintro ⟨ht, ha, hw, hsec⟩
    simp [ht, ha, hw, hsec]

theorem State.acquisitionLabel_none (h : ¬(s.tb.timeSet = false ∧ s.tb.acq = some p ∧
      ∃ x, (s.port p).waiting = some x ∧ x.sec ≤ 86399)) :
    (s.pulseTaken p dt).acquisitionLabel p (s.pulseIn p dt) = none :=
  Option.eq_none_iff_forall_ne_some.mpr fun x hx => by
    obtain ⟨ht, ha, hw, hsec⟩ := (State.acquisitionLabel_iff x).mp hx
    exact h ⟨ht, ha, x, hw, hsec⟩

theorem State.stepsAt_iff : (s.pulseTaken p dt).stepsAt p = true ↔
    s.tb.stepWaiting = true ∧ s.sel.selection = some p ∧ s.tb.edgeAt + 5000000 < s.now + dt := by
  obtain ⟨htb, hsel, -, -, hnow, -, -⟩ := s.pulseTaken_tb p dt
  simp [State.stepsAt, htb, hsel, hnow, halfSecond, and_assoc]

theorem State.pairsWithLatest_iff : (s.pulseTaken p dt).pairsWithLatest = true ↔
    s.tb.edgeMade = true ∧ s.now + dt ≤ s.tb.edgeAt + 5000000 := by
  obtain ⟨htb, -, -, -, hnow, -, -⟩ := s.pulseTaken_tb p dt
  simp [State.pairsWithLatest, htb, hnow, halfSecond]

/-- A pulse that carries out acquisition. -/
theorem State.pulseEffects_acquires {x : Label} (ht : s.tb.timeSet = false) (ha : s.tb.acq = some p)
    (hw : (s.port p).waiting = some x) (hsec : x.sec ≤ 86399) :
    (s.pulseTaken p dt).pulseEffects p (s.pulseIn p dt) =
      ((s.pulseTaken p dt).pushOpen p (s.pulseIn p dt)).makeEdge (.acquisition x) := by
  rw [State.pulseEffects, (State.acquisitionLabel_iff x).mpr ⟨ht, ha, hw, hsec⟩]

/-- A pulse that carries out a phase step. -/
theorem State.pulseEffects_steps (ht : s.tb.timeSet = true) (hw : s.tb.stepWaiting = true)
    (hs : s.sel.selection = some p) (hl : s.tb.edgeAt + 5000000 < s.now + dt) :
    (s.pulseTaken p dt).pulseEffects p (s.pulseIn p dt) =
      ((s.pulseTaken p dt).pushOpen p (s.pulseIn p dt)).makeEdge .phaseStep := by
  rw [State.pulseEffects, State.acquisitionLabel_none (by simp [ht])]
  exact if_pos (State.stepsAt_iff.mpr ⟨hw, hs, hl⟩)

/-- A pulse paired with the latest edge. -/
theorem State.pulseEffects_pairs (hno : ¬(s.tb.timeSet = false ∧ s.tb.acq = some p ∧
      ∃ x, (s.port p).waiting = some x ∧ x.sec ≤ 86399)) (he : s.tb.edgeMade = true)
    (hl : s.now + dt ≤ s.tb.edgeAt + 5000000) :
    (s.pulseTaken p dt).pulseEffects p (s.pulseIn p dt) =
      (s.pulseTaken p dt).pulseNow p (s.pulseIn p dt) := by
  rw [State.pulseEffects, State.acquisitionLabel_none hno]
  dsimp only
  rw [if_neg (fun h => by have := (State.stepsAt_iff.mp h).2.2; omega),
    if_pos (State.pairsWithLatest_iff.mpr ⟨he, hl⟩)]

/-- A pulse that waits for the next edge. -/
theorem State.pulseEffects_waits (hno : ¬(s.tb.timeSet = false ∧ s.tb.acq = some p ∧
      ∃ x, (s.port p).waiting = some x ∧ x.sec ≤ 86399))
    (hs : s.tb.stepWaiting = false ∨ s.sel.selection ≠ some p)
    (hl : s.tb.edgeMade = false ∨ s.tb.edgeAt + 5000000 < s.now + dt) :
    (s.pulseTaken p dt).pulseEffects p (s.pulseIn p dt) =
      (s.pulseTaken p dt).pushOpen p (s.pulseIn p dt) := by
  rw [State.pulseEffects, State.acquisitionLabel_none hno]
  dsimp only
  rw [if_neg, if_neg]
  · intro h
    obtain ⟨he, hn⟩ := State.pairsWithLatest_iff.mp h
    rcases hl with hf | hlt
    · simp [he] at hf
    · omega
  · intro h
    obtain ⟨hw, hsel, -⟩ := State.stepsAt_iff.mp h
    simp [hw, hsel] at hs

end

/-- What a pulse leaves of its port at once. -/
theorem RefPort.pulse_keeps (r : RefPort) (window now : Nat) :
    (r.pulse window now).openPulses = r.openPulses ∧ (r.pulse window now).lastOffset = r.lastOffset ∧
      (r.pulse window now).edgeOffset = r.edgeOffset ∧
      (r.st ≠ .absent → ((r.pulse window now).goodRun, (r.pulse window now).irregRun,
        (r.pulse window now).unlabRun) = (r.goodRun, r.irregRun, r.unlabRun)) := by
  unfold RefPort.pulse RefPort.present
  split
  case isTrue h => exact ⟨rfl, rfl, rfl, fun hna => absurd h hna⟩
  case isFalse => exact ⟨rfl, rfl, rfl, fun _ => rfl⟩

/-- The interval of a pulse: regular within the window about the 10,000,000 cycles of a second. -/
theorem RefPort.intervalAt_eq (r : RefPort) (window now : Nat) : r.intervalAt window now =
    (match r.lastPulse with
      | none => .none
      | some last =>
        if 10000000 ≤ now - last + window ∧ now - last ≤ 10000000 + window then .regular else .irregular) := by
  cases h : r.lastPulse with
  | none => simp only [RefPort.intervalAt, h]
  | some last =>
    simp only [RefPort.intervalAt, h, Bool.and_eq_true, decide_eq_true_eq, Nat.sub_le_iff_le_add]

/-! ## The timebase after an edge that a pulse makes -/

/-- Moved ports leave an empty window empty, and in SET time what acquisition waits on. -/
theorem State.portsMoved_window {s0 s : State} (ht : s.tb.timeSet = true) (hw : s.tb.winCount = 0)
    (hs : s.tb.winSum = 0) : (s0.portsMoved s).tb.winCount = 0 ∧ (s0.portsMoved s).tb.winSum = 0 ∧
      (s0.portsMoved s).tb.acq = s.tb.acq := by
  rw [State.portsMoved_tb_eq, State.select_tb_set ht]
  split
  · split
    · exact ⟨rfl, rfl, rfl⟩
    · exact ⟨hw, hs, rfl⟩
  · split
    · exact ⟨hw, hs, rfl⟩
    · exact ⟨rfl, rfl, rfl⟩

theorem State.pulsesAtEdge_made {kind : EdgeKind} (hk : kind ≠ .counted) (s : State) :
    (s.pulsesAtEdge kind).tb = (s.portsMoved ((s.completeOpen .p1).completeOpen .p2)).tb := by
  simp only [State.pulsesAtEdge, if_neg hk]
  split <;> simp

theorem State.makeEdge_window {kind : EdgeKind} (hk : kind ≠ .counted) {s : State}
    (ht : (s.tb.edge kind s.now).timeSet = true) (hw : (s.tb.edge kind s.now).winCount = 0)
    (hs : (s.tb.edge kind s.now).winSum = 0) :
    (s.makeEdge kind).tb.winCount = 0 ∧ (s.makeEdge kind).tb.winSum = 0 ∧
      (s.makeEdge kind).tb.acq = (s.tb.edge kind s.now).acq ∧ (s.makeEdge kind).tb.corr = 0 := by
  have hbegin : (s.beginEdge kind).tb = s.tb.edge kind s.now := rfl
  obtain ⟨hcount, hsum, hacq⟩ := State.portsMoved_window (s0 := s.beginEdge kind)
    (s := ((s.beginEdge kind).completeOpen .p1).completeOpen .p2) (by simpa [hbegin]) (by simpa [hbegin])
    (by simpa [hbegin])
  obtain ⟨-, -, hcorr, -⟩ := s.tb.edge_begun kind s.now
  rw [State.makeEdge_eq]
  simp only [State.edgeFinished_tb, State.edgeStarted, State.loadLevels_frame, State.markBegun,
    State.pulsesAtEdge_made hk, hcount, hsum, hacq]
  simp [hbegin, hcorr]

/-- What a pulse's edge leaves of broadcast time. -/
theorem State.makeEdge_tb (s : State) (kind : EdgeKind) :
    (s.makeEdge kind).tb.timeSet = (s.tb.edge kind s.now).timeSet ∧
      (s.makeEdge kind).tb.day = (s.tb.edge kind s.now).day ∧
      (s.makeEdge kind).tb.sec = (s.tb.edge kind s.now).sec ∧
      (s.makeEdge kind).tb.minLen = (s.tb.edge kind s.now).minLen ∧
      (s.makeEdge kind).tb.edgeAt = s.now ∧ (s.makeEdge kind).tb.k = (s.tb.edge kind s.now).k ∧
      (s.makeEdge kind).tb.freeSec = (s.tb.edge kind s.now).freeSec ∧
      (s.makeEdge kind).tb.freeMin = (s.tb.edge kind s.now).freeMin ∧
      (s.makeEdge kind).tb.pendingStep = (s.tb.edge kind s.now).pendingStep := by
  simp [State.makeEdge_eq, s.tb.edge_begun kind s.now]

/-- The delay of a mark that opened at the edge's instant. -/
theorem State.makeEdge_lastDelay (s : State) (kind : EdgeKind) :
    (s.makeEdge kind).mon.lastDelay = if s.mon.delayAt = some s.now then 0 else s.mon.lastDelay := by
  have hstart : (s.edgeStarted kind).mon = s.mon.atEdge ⟨s.now, (s.tb.edge kind s.now).day,
      (s.tb.edge kind s.now).sec⟩ := by
    simp [State.edgeStarted, State.markBegun, State.beginEdge]
  rw [State.makeEdge_eq, (s.edgeStarted kind).edgeFinished_heardAlike.delay, hstart]
  rfl

/-- The edge that a pulse makes gives it the offset 0. -/
theorem State.makeEdge_lastOffset {kind : EdgeKind} (hk : kind ≠ .counted) (s : State) (p : Port)
    {u : OpenPulse} (hu : u.at_ = s.now) : (((s.pushOpen p u).makeEdge kind).port p).lastOffset = 0 := by
  obtain ⟨b, hb⟩ := (s.pushOpen p u).makeEdge_port hk p
  have hpush : (((s.pushOpen p u).beginEdge kind).port p).openPulses = (s.port p).openPulses ++ [u] := by
    rw [State.beginEdge_openPulses, (s.pushOpen_port p u).1]
  have hoffset : ((s.pushOpen p u).beginEdge kind).offsetOf u.at_ = 0 := by
    have hnow : ((s.pushOpen p u).beginEdge kind).tb.edgeAt = s.now := by
      refine ((s.pushOpen p u).tb.edge_begun kind (s.pushOpen p u).now).1.trans ?_
      simp
    rw [State.offsetOf, hnow, hu, sub_self]
  rw [hb, State.evaluatedAll, hpush, List.foldl_append]
  exact (RefPort.judge_keeps _ _ _ _).2.1.trans hoffset

/-! ## The timebase's own part of such an edge (R34, R36) -/

theorem Timebase.edge_acquisition (t : Timebase) (x : Label) (now : Nat) :
    (t.edge (.acquisition x) now).timeSet = true ∧ (t.edge (.acquisition x) now).acq = none ∧
      (t.edge (.acquisition x) now).minLen = 60 ∧ (t.edge (.acquisition x) now).k = (t.k + 1) % 100 ∧
      (t.edge (.acquisition x) now).freeSec = t.freeSec ∧ (t.edge (.acquisition x) now).freeMin = t.freeMin ∧
      (t.edge (.acquisition x) now).winCount = 0 ∧ (t.edge (.acquisition x) now).winSum = 0 ∧
      (t.edge (.acquisition x) now).pendingStep = none ∧
      ((t.edge (.acquisition x) now).day, (t.edge (.acquisition x) now).sec) =
        t.pendingStep.getD (x.day, x.sec) := by
  obtain ⟨n, hn⟩ := t.learn.age_eq
  obtain ⟨-, -, -, -, -, hfs, hfm, -, hk, hp, -, -⟩ := t.learn_keeps
  have hedge : t.edge (.acquisition x) now =
      (Timebase.timeAtEdge { t.learn with holdAge := n } (.acquisition x)).beginSecond now := by
    rw [← hn]; rfl
  rw [hedge]
  cases hs : t.pendingStep <;>
    simp [Timebase.timeAtEdge, Timebase.beginSecond, Timebase.acquire, Timebase.setTime, Timebase.emptyWindow,
      hp, hs, hfs, hfm, hk]

theorem Timebase.timeAtEdge_phaseStep {t : Timebase} (ht : t.timeSet = true) (hp : t.pendingStep = none) :
    t.timeAtEdge .phaseStep = t.advance := by
  simp only [Timebase.timeAtEdge, hp, ht, if_true]

/-- A phase step's edge inside a minute. -/
theorem Timebase.edge_phaseStep {t : Timebase} (ht : t.timeSet = true) (hp : t.pendingStep = none)
    (hm : secondOfMinute t.sec + 1 < t.minLen) (now : Nat) :
    (t.edge .phaseStep now).timeSet = true ∧ (t.edge .phaseStep now).k = (t.k + 1) % 100 ∧
      (t.edge .phaseStep now).winCount = 0 ∧ (t.edge .phaseStep now).winSum = 0 ∧
      (t.edge .phaseStep now).day = t.day ∧ (t.edge .phaseStep now).sec = t.sec + 1 := by
  obtain ⟨n, hn⟩ := ({ t.emptyWindow with stepWaiting := false } : Timebase).age_eq
  have hedge : t.edge .phaseStep now = (Timebase.timeAtEdge
      { ({ t.emptyWindow with stepWaiting := false } : Timebase) with holdAge := n } .phaseStep).beginSecond now := by
    rw [← hn]; rfl
  rw [hedge, Timebase.timeAtEdge_phaseStep (by exact ht) (by exact hp), Timebase.advance_inMinute (by exact hm)]
  exact ⟨ht, rfl, rfl, rfl, rfl, rfl⟩

/-! ## The correction by a pulse paired with the latest edge (R28, R29) -/

/-- The offset of a pulse that comes `early` after the latest edge, limited to SLEW. -/
theorem correctionOf_late (slew early : Nat) :
    correctionOf slew (-(early : Int)) = if early ≤ slew then (early : Int) else slew := by
  simp only [correctionOf, limit]
  split <;> omega

/-- A pulse of the port that steers slews nothing on an entry. -/
theorem State.pulseNow_steering {s : State} {p : Port} (u : OpenPulse) (hd : s.tb.disc = .locked)
    (hs : s.sel.selection = some p) :
    (s.pulseNow p u).tb = ((s.correct p (s.offsetOf u.at_)).portsMoved
        ((s.correct p (s.offsetOf u.at_)).completePulse p u (s.offsetOf u.at_))).tb ∧
      (s.pulseNow p u).cond = ((s.correct p (s.offsetOf u.at_)).portsMoved
        ((s.correct p (s.offsetOf u.at_)).completePulse p u (s.offsetOf u.at_))).cond := by
  have hidle := State.slewOnEntry_idle (s0 := s.correct p (s.offsetOf u.at_))
    (s := (s.correct p (s.offsetOf u.at_)).portsMoved
      ((s.correct p (s.offsetOf u.at_)).completePulse p u (s.offsetOf u.at_))) (known := fun q => q = p)
    fun q _ hq => by
      obtain rfl : q = p := by simpa using hq
      simpa using ⟨hd, hs⟩
  simp [State.pulseNow, hidle]

end Sys2Proof.Machine

namespace Sys2Proof

open Sys2Proof.Machine

/-- Settles O26: a pulse paired with the latest edge by the port that steers corrects before it is evaluated,
and one that waits joins its port's open pulses. -/
theorem pulseCorrectsTheSecond : Obligations.PulseCorrectsTheSecond := by
  refine ⟨fun p dt s hp hst hd hsel hw ht hmade hfrom hto => ?paired,
    fun p dt s hp hst hlate hstep hno => ?waits⟩
  case paired =>
    intro early c
    have hx := State.exec_refPulse hp hst dt
    rw [State.pulseEffects_pairs (by simp [ht]) hmade hto] at hx
    obtain ⟨htb, hsel', hparams, hcond, hnow, -, -⟩ := s.pulseTaken_tb p dt
    have ho : (s.pulseTaken p dt).offsetOf (s.pulseIn p dt).at_ = -(early : Int) := by
      have hearly : (early : Int) = ((s.now + dt : Nat) : Int) - (s.tb.edgeAt : Int) := by omega
      rw [State.offsetOf, htb, hearly]
      exact (neg_sub _ _).symm
    obtain ⟨htbAfter, hcondAfter⟩ := State.pulseNow_steering (s := s.pulseTaken p dt) (p := p) (s.pulseIn p dt)
      (by rw [htb]; exact hd) (by rw [hsel']; exact hsel)
    have hc : correctionOf s.params.slew (-(early : Int)) = c := correctionOf_late _ _
    have hcorrect := State.correct_steering (s := s.pulseTaken p dt) (p := p) (-(early : Int))
      (by rw [htb]; exact hd) (by rw [hsel']; exact hsel) (by rw [htb]; exact hw)
    rw [hparams, hc, Int.natAbs_neg, Int.natAbs_natCast] at hcorrect
    have hport := ((s.pulseTaken p dt).pulseNow_port p (s.pulseIn p dt)).1
    rw [ho] at htbAfter hcondAfter
    generalize (s.pulseTaken p dt).correct p (-(early : Int)) = x at hcorrect htbAfter hcondAfter
    have hafter : ((s.pulseTaken p dt).pulseNow p (s.pulseIn p dt)).tb.length = x.tb.length ∧
        ((s.pulseTaken p dt).pulseNow p (s.pulseIn p dt)).tb.corr = x.tb.corr ∧
        ((s.pulseTaken p dt).pulseNow p (s.pulseIn p dt)).tb.edgeAt = x.tb.edgeAt ∧
        ((s.pulseTaken p dt).pulseNow p (s.pulseIn p dt)).tb.slewing = x.tb.slewing := by
      rw [htbAfter]
      simp
    obtain ⟨hlength, hcorr, hedge, hslewing⟩ := hafter
    have hx' : x.tb.length = s.tb.length + c ∧ x.tb.corr = s.tb.corr + c ∧ x.tb.edgeAt = s.tb.edgeAt ∧
        x.tb.slewing = (s.tb.slewing || decide (s.params.slew < early)) := by
      rw [hcorrect, htb]
      exact ⟨rfl, rfl, rfl, rfl⟩
    have hlive : x.cond.live[Counter.slewSeconds.id] = (if s.params.slew < early ∧ s.tb.slewing = false then
        min 4294967295 (s.cond.live[Counter.slewSeconds.id] + 1)
        else s.cond.live[Counter.slewSeconds.id]) := by
      rw [hcorrect, htb]
      dsimp only
      split
      · exact ((s.pulseTaken p dt).count_live .slewSeconds 1).trans (by rw [hcond]; rfl)
      · exact congrArg (fun c : Conditions => c.live[Counter.slewSeconds.id]) hcond
    refine ⟨_, hx, hlength.trans hx'.1, hcorr.trans hx'.2.1, hedge.trans hx'.2.2.1, ?_, ?_, ?_⟩
    · refine (Bool.eq_iff_iff.mp (hslewing.trans hx'.2.2.2)).trans ?_
      simp
    · refine (congrArg RefPort.lastOffset ((State.port_congr rfl rfl p).trans hport)).trans ?_
      exact (RefPort.judge_keeps _ _ _ _).2.1.trans ho
    · refine Eq.trans ?_ hlive
      refine (congrArg (fun c : Conditions => c.live[Counter.slewSeconds.id]) hcondAfter).trans ?_
      simp only [State.portsMoved_live]
      exact x.completePulse_slewSeconds _ _ _
  case waits =>
    intro r
    have hx := State.exec_refPulse hp hst dt
    rw [State.pulseEffects_waits hno hstep hlate] at hx
    obtain ⟨hport, hother⟩ := (s.pulseTaken p dt).pushOpen_port p (s.pulseIn p dt)
    obtain ⟨htaken, htakenOther⟩ := s.pulseTaken_port p dt
    rw [htaken] at hport
    have hsettle (q : Port) : ((s.pulseTaken p dt).pushOpen p (s.pulseIn p dt)).settle.port q =
        ((s.pulseTaken p dt).pushOpen p (s.pulseIn p dt)).port q := State.port_congr rfl rfl q
    have htook := r.pulse_keeps s.params.qualWindow (s.now + dt)
    refine ⟨_, (s.pulseIn p dt).interval, hx, RefPort.intervalAt_eq _ _ _, ?_, ?_, fun hna => ?_, ?_,
      (hsettle _).trans (hother.trans htakenOther), ?_, ?_⟩
    · rw [hsettle, hport, htook.1]
      rfl
    · rw [hsettle, hport]
      exact (r.pulse_st s.params.qualWindow (s.now + dt)).1
    · rw [hsettle, hport]
      exact htook.2.2.2 hna
    · rw [hsettle, hport, htook.2.1, htook.2.2.1]
    · have hcond : ((s.pulseTaken p dt).pushOpen p (s.pulseIn p dt)).cond = s.cond := by
        simp [s.pulseTaken_tb p dt]
      exact (State.settle_mon_live _).2.trans (congrArg Conditions.live hcond)
    · apply State.ext <;> simp [State.pulseTaken]

/-- Settles O27: the edge that a pulse makes takes its time from the label or the step, and the pulse's offset
to it is 0. -/
theorem pulseMakesAnEdge : Obligations.PulseMakesAnEdge := by
  refine ⟨fun p dt s x hp hst ht ha hw hsec => ?acquisition, fun p dt s hp hst ht hw hs hl hstep hm => ?phaseStep⟩
  case acquisition =>
    have hx := State.exec_refPulse hp hst dt
    rw [State.pulseEffects_acquires ht ha hw hsec] at hx
    obtain ⟨htb, hnow, hmon⟩ := s.pulsePushed_frame p dt
    obtain ⟨hset, hacq, hlen, hk, hfs, hfm, hwc, hws, hps, htime⟩ := s.tb.edge_acquisition x (s.now + dt)
    obtain ⟨h1, h2, h3, h4, h5, h6, h7, h8, h9⟩ := State.makeEdge_tb
      ((s.pulseTaken p dt).pushOpen p (s.pulseIn p dt)) (.acquisition x)
    have hmade := State.makeEdge_window (kind := .acquisition x) nofun
      (s := (s.pulseTaken p dt).pushOpen p (s.pulseIn p dt))
    have hdelay := State.makeEdge_lastDelay ((s.pulseTaken p dt).pushOpen p (s.pulseIn p dt)) (.acquisition x)
    have hoffset := State.makeEdge_lastOffset (kind := .acquisition x) nofun (s.pulseTaken p dt) p
      (s.pulseIn_now p dt)
    rw [htb, hnow] at h1 h2 h3 h4 h6 h7 h8 h9 hmade
    rw [hmon, hnow] at hdelay
    obtain ⟨hcount, hsum, hacq', hcorr⟩ := hmade hset hwc hws
    refine ⟨_, hx, h1.trans hset, hacq'.trans hacq, h4.trans hlen, h5.trans hnow, h6.trans hk,
      Prod.ext (h7.trans hfs) (h8.trans hfm), Prod.ext hcount hsum, hcorr,
      (congrArg RefPort.lastOffset (State.port_congr rfl rfl p)).trans hoffset, h9.trans hps,
      (Prod.ext h2 h3).trans htime, hdelay⟩
  case phaseStep =>
    have hx := State.exec_refPulse hp hst dt
    rw [State.pulseEffects_steps ht hw hs hl] at hx
    obtain ⟨htb, hnow, hmon⟩ := s.pulsePushed_frame p dt
    obtain ⟨hset, hk, hwc, hws, hday, hsec⟩ := Timebase.edge_phaseStep ht hstep hm (s.now + dt)
    obtain ⟨h1, h2, h3, h4, h5, h6, h7, h8, h9⟩ := State.makeEdge_tb
      ((s.pulseTaken p dt).pushOpen p (s.pulseIn p dt)) .phaseStep
    have hmade := State.makeEdge_window (kind := .phaseStep) nofun
      (s := (s.pulseTaken p dt).pushOpen p (s.pulseIn p dt))
    have hdelay := State.makeEdge_lastDelay ((s.pulseTaken p dt).pushOpen p (s.pulseIn p dt)) .phaseStep
    have hoffset := State.makeEdge_lastOffset (kind := .phaseStep) nofun (s.pulseTaken p dt) p
      (s.pulseIn_now p dt)
    rw [htb, hnow] at h1 h2 h3 h4 h6 h7 h8 h9 hmade
    rw [hmon, hnow] at hdelay
    obtain ⟨hcount, hsum, -, hcorr⟩ := hmade hset hwc hws
    exact ⟨_, hx, h5.trans hnow, h6.trans hk, hcorr, Prod.ext (h2.trans hday) (h3.trans hsec),
      Prod.ext hcount hsum, (congrArg RefPort.lastOffset (State.port_congr rfl rfl p)).trans hoffset, hdelay⟩

end Sys2Proof

/-! A second edge inside a minute: the mark and the levels of its second (R2..R6, R14, R18). -/

namespace Sys2Proof.Machine

/-! ## The keyer at a second edge -/

/-- The levels are loaded before the keyer's part, and nothing else of the keyer changes. -/
theorem State.edgeBegun_key (s : State) : s.edgeBegun.key = { s.key with
    full := s.params.fullLevel
    reduced := reducedLevel s.params.fullLevel s.params.depth } := by
  simp [State.edgeBegun, State.markBegun, State.loadLevels, State.beginEdge, State.waitUntil]

theorem State.processSchedule_key (s : State) (f : Nat) :
    (s.processSchedule f).key = if s.sched.opensAt f then { s.key with windowReport := true } else s.key := by
  simp only [State.processSchedule]
  split <;> simp

/-- A composition can tell the keyer of a window opening, and no more. -/
theorem State.composition_key (s : State) :
    ∃ b, s.composition.key = { s.key with windowReport := b } := by
  have hkey : s.composition.key = (s.leapCheck.processSchedule (nextMinute s.tb.minute)).key := by
    simp [State.composition]
  rw [hkey, State.processSchedule_key]
  split
  · exact ⟨true, by simp⟩
  · exact ⟨s.key.windowReport, by simp⟩

/-- The edge inside a minute: the signal, and the composition at its second. -/
theorem State.edgeFinished_inside {s : State} (h : s.tb.atBoundary = false) : s.edgeFinished =
    if s.tb.atComposition then (s.beginSignal false).composition else s.beginSignal false := by
  simp only [State.edgeFinished, h, Bool.false_eq_true, if_false, State.beginSignal_frame]

theorem State.edgeFinished_inside_key {s : State} (h : s.tb.atBoundary = false) :
    ∃ b, s.edgeFinished.key = { (s.beginSignal false).key with windowReport := b } := by
  rw [State.edgeFinished_inside h]
  split
  · exact State.composition_key _
  · exact ⟨(s.beginSignal false).key.windowReport, rfl⟩

/-- A counted edge that begins no minute, of broadcast time or of the free counts. -/
theorem State.edgeBegun_inside {s : State} (hp : s.tb.pendingStep = none)
    (h : (s.tb.timeSet = true ∧ secondOfMinute s.tb.sec + 1 < s.tb.minLen ∧
        secondOfMinute (s.tb.sec + 1) ≠ 0) ∨ (s.tb.timeSet = false ∧ s.tb.freeSec ≠ 59)) :
    s.edgeBegun.tb.atBoundary = false := by
  have hfs : s.edgeBegun.tb.freeSec = (s.tb.edge .counted (max s.now s.tb.due)).freeSec := by
    simp [State.edgeBegun_eq, State.waitUntil]
  obtain ⟨-, hset, hsec⟩ := s.edgeBegun_tb
  rcases h with ⟨ht, hin, hne⟩ | ⟨ht, hne⟩
  · obtain ⟨eset, -, esec, -⟩ := Timebase.edge_counted_set hp ht (max s.now s.tb.due)
    rw [Timebase.atBoundary, hset, eset, hsec, esec, Timebase.advance_inMinute hin]
    simpa using hne
  · obtain ⟨eset, efs, -⟩ := Timebase.edge_counted_unset hp ht (max s.now s.tb.due)
    rw [Timebase.atBoundary, hset, eset, hfs, efs, if_neg hne]
    simp

end Sys2Proof.Machine

namespace Sys2Proof

open Sys2Proof.Machine

/-- Settles O40: inside a minute the edge loads the levels and begins the signal of the mode. -/
theorem secondBegunTakesItsMark : Obligations.SecondBegunTakesItsMark := by
  refine ⟨fun s hp hw hstep hin => ?edge, fun t => ⟨rfl, rfl, rfl, rfl⟩, fun s hp => ⟨fun hm => ?_, fun hm => ⟨fun hk => ?_, fun i rest hk => ?_⟩⟩⟩
  case edge =>
    have hnow : s.edgeBegun.now = max s.now s.tb.due := by simp [State.edgeBegun_eq, State.waitUntil]
    obtain ⟨htnow, -⟩ := s.secondEdge_frame
    obtain ⟨b, hb⟩ := State.edgeFinished_inside_key (State.edgeBegun_inside hstep hin)
    have hkey : s.edgeBegun.edgeFinished.settle.key = { (s.edgeBegun.beginSignal false).key with
      windowReport := b } := hb
    refine ⟨_, State.exec_secondEdge hp hw, ?_⟩
    rw [hkey, htnow, ← hnow]
    simp only [State.beginSignal, State.edgeBegun_key, Keyer.symbol]
    refine ⟨trivial, trivial, trivial, rfl, trivial, rfl, fun hm => ?_, fun hm => ?_, fun hm => ?_⟩
    · rcases hm with hm | hm <;> rw [hm] <;> exact ⟨rfl, rfl⟩
    · rw [hm]
      exact ⟨rfl, rfl⟩
    · rw [hm]
      refine ⟨rfl, fun hc => by rw [hc]; rfl, fun f hc => ⟨fun hlen => ?_, fun x hx => ?_⟩⟩
      · rw [hc]
        simp [List.getElem?_eq_none hlen]
      · rw [hc]
        simp [hx]
  · simp [State.amplitude, State.carrierEnable, Keyer.onAir, hm]
  · simp [State.amplitude, State.carrierEnable, Keyer.onAir, hm, hp, Keyer.inReduced, hk]
  · simp [State.amplitude, State.carrierEnable, Keyer.onAir, hm, hp, Keyer.inReduced, hk]

end Sys2Proof

/-! The processing at a composition instant, and the edge that makes it (R59, R75..R82, R87, R90, R101). -/

namespace Sys2Proof.Machine

/-! ## The stages of the processing -/

theorem State.processSchedule_sched (s : State) (f : Nat) :
    (s.processSchedule f).sched = { s.sched.process f s.tb.day s.tb.sec with
      version := if s.sched.changesAt f then (s.sched.version + 1) % 65536 else s.sched.version } := by
  simp only [State.processSchedule]
  split <;> rfl

theorem State.processSchedule_cond (s : State) (f : Nat) :
    (s.sched.changesAt f = true → (s.processSchedule f).cond.viewA.getLsbD 18 = true ∧
        (s.processSchedule f).cond.viewB.getLsbD 18 = true) ∧
      (s.sched.changesAt f = false → (s.processSchedule f).cond = s.cond) := by
  simp only [State.processSchedule]
  refine ⟨fun h => ?_, fun h => ?_⟩
  · rw [if_pos h]
    exact State.scheduleChanged_views _
  · rw [if_neg (by simp [h])]

theorem Entry.outcomeAt_eq (x : Entry) (f : Nat) : x.outcomeAt f =
    if x.kind = .zoneChange then (if x.e = f then .applied else .appliedLate)
    else if x.altered = some true then .applied else .missed := by
  unfold Entry.outcomeAt Entry.isLeap
  by_cases h : x.kind = .zoneChange <;> simp [h]

/-- The record of an entry due at `f`. -/
theorem Entry.retire_eq (x : Entry) (f day sec : Nat) : x.retire (x.outcomeAt f) none day sec = {
    number := x.number, kind := x.kind, eDay := x.eDay, eMinute := x.eMinute
    newZone := x.newZone, origin := x.origin
    outcome := if x.kind = .zoneChange then (if x.e = f then .applied else .appliedLate)
      else if x.altered = some true then .applied else .missed
    withdrawnBy := none, atDay := day, atSec := sec } := by
  rw [Entry.outcomeAt_eq]
  rfl

section

variable {t : Schedule} {f : Nat}

theorem Schedule.due_eq_nil (h : ∀ x ∈ t.entries, f < x.e) : t.due f = [] :=
  List.filter_eq_nil_iff.mpr fun x hx => by simpa using h x hx

/-- Entries that change no zone leave the zone index. -/
theorem foldl_newZone_none {xs : List Entry} (h : ∀ y ∈ xs, y.newZone = none) (z : Nat) :
    xs.foldl (fun z x => x.newZone.getD z) z = z := by
  induction xs with
  | nil => rfl
  | cons x xs ih =>
    rw [List.foldl_cons, h x (List.mem_cons_self ..), Option.getD_none,
      ih fun y hy => h y (List.mem_cons_of_mem x hy)]

theorem Schedule.zoneAt_none (h : ∀ y ∈ t.due f, y.newZone = none) : t.zoneAt f = t.pendingZone.getD t.zone :=
  foldl_newZone_none h _

theorem Schedule.zoneAt_last {before after : List Entry} {x : Entry} {z : Nat}
    (h : t.due f = before ++ x :: after) (hz : x.newZone = some z) (ha : ∀ y ∈ after, y.newZone = none) :
    t.zoneAt f = z := by
  rw [Schedule.zoneAt, h, List.foldl_append, List.foldl_cons, foldl_newZone_none ha, hz, Option.getD_some]

theorem Schedule.opensAt_iff : t.opensAt f = true ↔
    ∃ x ∈ t.entries, f < x.e ∧ x.announcing = false ∧ x.e ≤ f + x.lead := by
  simp only [Schedule.opensAt, Schedule.remaining, List.any_eq_true, List.mem_filter, Entry.atFrame,
    Bool.and_eq_true, Bool.not_eq_true', decide_eq_true_eq]
  exact exists_congr fun x => by rw [and_assoc]

theorem Schedule.changesAt_iff : t.changesAt f = true ↔ (∃ x ∈ t.entries, x.e ≤ f) ∨
    (∃ z, t.pendingZone = some z ∧ z ≠ t.zone) ∨
    (∃ x ∈ t.entries, f < x.e ∧ x.announcing ≠ decide (x.e ≤ f + x.lead)) := by
  have hany : (t.remaining f).any (fun x => x.announcing ≠ (x.atFrame f).announcing) = true ↔
      ∃ x ∈ t.entries, f < x.e ∧ x.announcing ≠ decide (x.e ≤ f + x.lead) := by
    simp only [Schedule.remaining, List.any_eq_true, List.mem_filter, decide_eq_true_eq, and_assoc]
    exact Iff.rfl
  have hpending : t.pendingZone.getD t.zone ≠ t.zone ↔ ∃ z, t.pendingZone = some z ∧ z ≠ t.zone := by
    cases t.pendingZone <;> simp
  have hdue : (t.due f).isEmpty = false ↔ ∃ x ∈ t.entries, x.e ≤ f := by
    rw [List.isEmpty_eq_false_iff_exists_mem]
    simp [Schedule.due]
  have hzone (h : t.due f = []) : t.zoneAt f = t.pendingZone.getD t.zone :=
    Schedule.zoneAt_none fun y hy => by simp [h] at hy
  rw [← hany, ← hpending, ← hdue]
  unfold Schedule.changesAt
  cases hd : t.due f with
  | nil => simp [hzone hd]
  | cons x xs => simp

end

theorem State.composition_eq (s : State) : s.composition =
    (s.leapCheck.processSchedule (nextMinute s.tb.minute)).handOver (nextMinute s.tb.minute) := rfl

/-- An item in a view stays there when the event ends. -/
theorem State.settle_views_grow (s : State) (l : Link) (i : Nat) (h : (s.cond.view l).getLsbD i = true) :
    (s.settle.cond.view l).getLsbD i = true := by
  cases l <;> simp_all [State.settle, Conditions.addToViews, Conditions.view]

/-! ## The ports at a counted edge (R47) -/

theorem State.evaluatedAll_congr {s t : State} (h : t.evaluated = s.evaluated) (r : RefPort) :
    t.evaluatedAll r = s.evaluatedAll r := by
  rw [State.evaluatedAll, State.evaluatedAll, h]

theorem State.correctOpen_evaluated (s : State) (p : Port) : (s.correctOpen p).evaluated = s.evaluated :=
  State.evaluated_congr (by simp) (by simp) (by simp)

theorem State.edgeBegun_port (s : State) (p : Port) : s.edgeBegun.port p =
    ((s.waitUntil s.tb.due).beginEdge .counted).evaluatedAll (s.port p).freshEdge := by
  have hcorrected (q r : Port) (x : State) : (x.correctOpen q).port r = x.port r :=
    State.port_congr (by simp) (by simp) r
  have hfresh : ((s.waitUntil s.tb.due).beginEdge .counted).port p = (s.port p).freshEdge := by cases p <;> rfl
  rw [State.edgeBegun_eq, State.edgeStarted_port, State.pulsesAtEdge_port, State.completeBoth_evaluated,
    hcorrected, hcorrected, hfresh,
    State.evaluatedAll_congr ((State.correctOpen_evaluated _ _).trans (State.correctOpen_evaluated _ _))]

theorem State.evaluatedAll_leapDis (s : State) (r : RefPort) : (s.evaluatedAll r).leapDis = r.leapDis :=
  foldl_keeps (f := s.evaluated) (P := fun x : RefPort => x.leapDis = r.leapDis)
    (fun _ _ hx => (RefPort.judge_keeps _ _ _ _).2.2.2.2.2.2.2.2.1.trans hx) _ _ rfl

/-- The second after second 49 of a minute. -/
theorem secondOfMinute_50 {sec : Nat} (h : secondOfMinute sec = 49) :
    secondOfMinute (sec + 1) = 50 ∧ minuteOfDay (sec + 1) = minuteOfDay sec := by
  unfold secondOfMinute at *
  unfold minuteOfDay
  split at h
  · omega
  case isFalse hne =>
    rw [if_neg (by omega), if_neg (by omega), if_neg hne]
    omega

end Sys2Proof.Machine

namespace Sys2Proof

open Sys2Proof.Machine

/-- Settles O46: the processing by its stages, and the edge that begins second 50 as the composition on what the
edge has left. -/
theorem compositionProcessesTheSchedule : Obligations.CompositionProcessesTheSchedule := by
  refine ⟨fun s f => ?processing, fun s hp hw hstep ht h49 h50 => ?edge⟩
  case processing =>
    intro t
    have hsched : t.sched = _ := s.processSchedule_sched f
    have hkey : t.key = _ := s.processSchedule_key f
    obtain ⟨hraised, hquiet⟩ := s.processSchedule_cond f
    have hentries : t.sched.entries = (s.sched.remaining f).map (·.atFrame f) := by rw [hsched]; rfl
    have hretired : t.sched.retired = keepLast 8 (s.sched.retired ++ (s.sched.due f).map fun x =>
        x.retire (x.outcomeAt f) none s.tb.day s.tb.sec) := by rw [hsched]; rfl
    have hzone : t.sched.zone = s.sched.zoneAt f := by rw [hsched]; rfl
    refine ⟨fun x hx => ?_, ?_, by rw [hsched]; rfl, fun hnone => ?_, fun x hone hroom => ?_, ?_, hentries, ?_, ?_,
      by rw [hsched]; rfl, ?_⟩
    · rw [hentries] at hx
      obtain ⟨y, hy, rfl⟩ := List.mem_map.mp hx
      have hlater : f < y.e := by simpa using (List.mem_filter.mp hy).2
      refine ⟨hlater, decide_eq_true_iff, fun ha => ?_⟩
      have ha : y.altered.map (fun _ => decide (f + 1 = y.e)) = some true := ha
      obtain ⟨-, -, heq⟩ := Option.map_eq_some_iff.mp ha
      exact of_decide_eq_true heq
    · rw [hentries, List.map_map]
      rfl
    · have hdue := Schedule.due_eq_nil hnone
      rw [hzone, hretired, hdue, Schedule.zoneAt_none (by simp [hdue])]
      simp
    · have hdue : s.sched.due f = [x] := hone
      rw [hzone, hretired, hdue]
      refine ⟨x.retire (x.outcomeAt f) none s.tb.day s.tb.sec, ?_, rfl, rfl, x.outcomeAt_eq f, ?_⟩
      · have hlen : (s.sched.retired ++ [x.retire (x.outcomeAt f) none s.tb.day s.tb.sec]).length - 8 = 0 := by
          simp
          omega
        rw [keepLast, List.map_singleton, hlen, List.drop_zero]
      · rw [Schedule.zoneAt, hdue]
        rfl
    · intro due
      refine ⟨?_, fun before x after z hdue hz ha => ?_, fun hnone => ?_⟩
      · rw [hretired]
        simp only [Entry.retire_eq]
        rfl
      · rw [hzone]
        exact Schedule.zoneAt_last hdue hz ha
      · rw [hzone]
        exact Schedule.zoneAt_none hnone
    · intro opens
      rw [hkey]
      exact ⟨fun h => if_pos (Schedule.opensAt_iff.mpr h), fun h => if_neg (mt Schedule.opensAt_iff.mp h)⟩
    · intro changes
      have hversion : t.sched.version =
          if s.sched.changesAt f then (s.sched.version + 1) % 65536 else s.sched.version := by rw [hsched]
      refine ⟨fun h => ?_, fun h => ?_⟩
      · have hc := Schedule.changesAt_iff.mpr h
        exact ⟨hversion.trans (if_pos hc), hraised hc⟩
      · have hc := mt Schedule.changesAt_iff.mp h
        exact ⟨hversion.trans (if_neg hc), hquiet (Bool.eq_false_iff.mpr hc)⟩
    · apply State.ext <;> simp [t]
  case edge =>
    intro f
    obtain ⟨hsec, hminute⟩ := secondOfMinute_50 h49
    have hbound : s.edgeBegun.tb.atBoundary = false :=
      State.edgeBegun_inside hstep (.inl ⟨ht, by omega, by omega⟩)
    obtain ⟨eset, eday, esec, -⟩ := Timebase.edge_counted_set hstep ht (max s.now s.tb.due)
    rw [Timebase.advance_inMinute (by omega)] at eday esec
    have hx : (s.edgeBegun.beginSignal false).tb.timeSet = true ∧
        (s.edgeBegun.beginSignal false).tb.day = s.tb.day ∧
        (s.edgeBegun.beginSignal false).tb.sec = s.tb.sec + 1 := by
      simp [State.edgeBegun_eq, State.waitUntil, eset, eday, esec]
    have hfinished : s.edgeBegun.edgeFinished = (s.edgeBegun.beginSignal false).composition := by
      have hcomp : s.edgeBegun.tb.atComposition = true := by
        have hsame : s.edgeBegun.tb = (s.edgeBegun.beginSignal false).tb := by simp
        rw [hsame, Timebase.atComposition, hx.1, hx.2.2, hsec]
        rfl
      rw [State.edgeFinished_inside hbound, if_pos hcomp]
    have hframe : nextMinute (s.edgeBegun.beginSignal false).tb.minute = f := by
      rw [Timebase.minute, hx.2.1, hx.2.2, hminute]
      rfl
    have hexec := State.exec_secondEdge hp hw
    obtain ⟨htnow, -⟩ := s.secondEdge_frame
    obtain ⟨-, htday, htsec, -⟩ := s.secondEdge_tb
    have hxnow : (s.edgeBegun.beginSignal false).now = max s.now s.tb.due := by
      simp [State.edgeBegun_eq, State.waitUntil]
    rw [hfinished] at hexec htnow htday htsec
    have hxmon : (s.edgeBegun.beginSignal false).mon = s.mon.atEdge ⟨max s.now s.tb.due,
        (s.tb.edge .counted (max s.now s.tb.due)).day, (s.tb.edge .counted (max s.now s.tb.due)).sec⟩ := by
      simp [State.edgeBegun, State.markBegun, State.beginEdge, State.waitUntil]
    have hleap (p : Port) : ((s.edgeBegun.beginSignal false).port p).leapDis = (s.port p).leapDis := by
      have hport : (s.edgeBegun.beginSignal false).port p = s.edgeBegun.port p :=
        State.port_congr (by simp) (by simp) p
      rw [hport, State.edgeBegun_port, State.evaluatedAll_leapDis]
      rfl
    have hreport : (s.edgeBegun.beginSignal false).key.windowReport = s.key.windowReport := by
      simp [State.beginSignal, State.edgeBegun_key]
    have hxframe : s.edgeBegun.beginSignal false = { s with
        now := max s.now s.tb.due, tb := (s.edgeBegun.beginSignal false).tb
        ref1 := (s.edgeBegun.beginSignal false).ref1, ref2 := (s.edgeBegun.beginSignal false).ref2
        sel := (s.edgeBegun.beginSignal false).sel, key := (s.edgeBegun.beginSignal false).key
        cond := (s.edgeBegun.beginSignal false).cond, mon := (s.edgeBegun.beginSignal false).mon } := by
      apply State.ext <;> simp [State.edgeBegun_eq, State.waitUntil]
    generalize s.edgeBegun.beginSignal false = x at *
    obtain ⟨-, hday, hsec'⟩ := hx
    refine ⟨_, x, hexec, ?_, Prod.ext hday hsec', Prod.ext (hleap .p1) (hleap .p2), hreport, ?_, ?_, ?_, ?_⟩
    · rw [htnow, htday, htsec, ← hxmon]
      exact hxframe
    · simp [State.composition]
    · intro y
      have hy : x.composition = y.handOver f := by rw [State.composition_eq, hframe]
      rw [hy]
      refine ⟨Prod.ext (by simp) (by simp), fun i hi => ?_, fun i hi => ?_⟩
      · exact State.settle_views_grow _ .a i (by simpa [Conditions.view] using hi)
      · exact State.settle_views_grow _ .b i (by simpa [Conditions.view] using hi)
    · have hcomp : x.comp = s.comp := by rw [hxframe]
      rw [State.composition_eq, hframe]
      refine Eq.trans (b := { x.comp with next := some ((x.leapCheck.processSchedule f).frameRecord f) }) ?_ ?_
      · simp [State.handOver]
      · rw [hcomp]
        rfl
    · rw [State.composition_eq, hframe]
      rfl

end Sys2Proof

/-! The calendar of the century (R92, R93, R94). -/

namespace Sys2Proof.Machine

/-! ## Month and day of month by the day of year (R93) -/

/-- The month of a day of year, in a leap year or another. -/
def monthAt (leap : Bool) (n : Nat) : Nat := ((monthStarts leap).filter (· ≤ n)).length

/-- The day of month of a day of year. -/
def dayAt (leap : Bool) (n : Nat) : Nat := n - (monthStarts leap).getD (monthAt leap n - 1) 0 + 1

/-- The number of days of a year. -/
def yearLength (leap : Bool) : Nat := if leap then 366 else 365

/-- The number of days of a month. -/
def daysOf (leap : Bool) (month : Nat) : Nat :=
  if month = 2 then (if leap then 29 else 28)
  else if month = 4 ∨ month = 6 ∨ month = 9 ∨ month = 11 then 30 else 31

/-- The day of year on which month `i + 1` begins; the thirteenth is the next year's first. -/
def monthStart (leap : Bool) (i : Nat) : Nat := (monthStarts leap).getD i (yearLength leap)

theorem monthStart_succ : ∀ (leap : Bool) (i : Nat), i < 12 →
    monthStart leap (i + 1) = monthStart leap i + daysOf leap (i + 1) := by decide

theorem monthStart_ends (leap : Bool) : monthStart leap 0 = 0 ∧ monthStart leap 12 = yearLength leap := by
  cases leap <;> exact ⟨rfl, rfl⟩

theorem daysOf_pos (leap : Bool) (month : Nat) : 28 ≤ daysOf leap month ∧ daysOf leap month ≤ 31 := by
  unfold daysOf
  repeat' split
  all_goals decide

theorem monthStarts_sorted : ∀ (leap : Bool) (i : Nat), i < 12 →
    (∀ x ∈ (monthStarts leap).take (i + 1), x ≤ monthStart leap i) ∧
      ∀ x ∈ (monthStarts leap).drop (i + 1), monthStart leap (i + 1) ≤ x := by decide

/-- The month and the day of month of a day of year between two starts. -/
theorem monthAt_between {leap : Bool} {i n : Nat} (hi : i < 12) (hlo : monthStart leap i ≤ n)
    (hhi : n < monthStart leap (i + 1)) :
    monthAt leap n = i + 1 ∧ dayAt leap n = n - monthStart leap i + 1 := by
  obtain ⟨hbefore, hafter⟩ := monthStarts_sorted leap i hi
  have hlen : (monthStarts leap).length = 12 := by cases leap <;> rfl
  have hfilter : (monthStarts leap).filter (· ≤ n) = (monthStarts leap).take (i + 1) := by
    conv_lhs => rw [← List.take_append_drop (i + 1) (monthStarts leap), List.filter_append]
    rw [List.filter_eq_self.mpr fun x hx => by simpa using (hbefore x hx).trans hlo,
      List.filter_eq_nil_iff.mpr fun x hx => by simpa using hhi.trans_le (hafter x hx), List.append_nil]
  have hmonth : monthAt leap n = i + 1 := by
    rw [monthAt, hfilter, List.length_take, hlen]
    omega
  refine ⟨hmonth, ?_⟩
  rw [dayAt, hmonth, Nat.add_sub_cancel, monthStart, List.getD_eq_getElem _ _ (by omega),
    List.getD_eq_getElem _ _ (by omega)]

/-- A value below the last of rising bounds lies between two of them. -/
theorem exists_between {f : Nat → Nat} {n : Nat} (h0 : f 0 ≤ n) (k : Nat) (hk : n < f k) :
    ∃ i, i < k ∧ f i ≤ n ∧ n < f (i + 1) := by
  induction k with
  | zero => omega
  | succ k ih =>
    by_cases h : n < f k
    · obtain ⟨i, hi, hb⟩ := ih h
      exact ⟨i, by omega, hb⟩
    · exact ⟨k, by omega, by omega, hk⟩

theorem exists_month {leap : Bool} {n : Nat} (h : n < yearLength leap) :
    ∃ i, i < 12 ∧ monthStart leap i ≤ n ∧ n < monthStart leap (i + 1) := by
  obtain ⟨h0, h12⟩ := monthStart_ends leap
  exact exists_between (by omega) 12 (by omega)

theorem monthAt_bounds {leap : Bool} {n : Nat} (h : n < yearLength leap) :
    1 ≤ monthAt leap n ∧ monthAt leap n ≤ 12 ∧ dayAt leap n ≤ 31 := by
  obtain ⟨i, hi, hlo, hhi⟩ := exists_month h
  obtain ⟨hm, hd⟩ := monthAt_between hi hlo hhi
  have hnext := monthStart_succ leap i hi
  have hlen := daysOf_pos leap (i + 1)
  omega

/-- The next day of a year is the next of the month or the first of the next month. -/
theorem day_follows {leap : Bool} {n : Nat} (h : n + 1 < yearLength leap) :
    (dayAt leap n < daysOf leap (monthAt leap n) →
      dayAt leap (n + 1) = dayAt leap n + 1 ∧ monthAt leap (n + 1) = monthAt leap n) ∧
    (¬dayAt leap n < daysOf leap (monthAt leap n) → monthAt leap n < 12 ∧
      dayAt leap (n + 1) = 1 ∧ monthAt leap (n + 1) = monthAt leap n + 1) := by
  obtain ⟨i, hi, hlo, hhi⟩ := exists_month (leap := leap) (n := n) (by omega)
  obtain ⟨hm, hd⟩ := monthAt_between hi hlo hhi
  have hnext := monthStart_succ leap i hi
  rw [hm, hd]
  refine ⟨fun hin => ?_, fun hend => ?_⟩
  · obtain ⟨hm', hd'⟩ := monthAt_between (leap := leap) (n := n + 1) hi (by omega) (by omega)
    omega
  · have hlast := (monthStart_ends leap).2
    have hi' : i + 1 < 12 := by
      by_contra hge
      obtain rfl : i = 11 := by omega
      have htwelve : monthStart leap (11 + 1) = monthStart leap 12 := rfl
      omega
    have hlen := (daysOf_pos leap (i + 1 + 1)).1
    have hafter := monthStart_succ leap (i + 1) hi'
    obtain ⟨hm', hd'⟩ := monthAt_between (leap := leap) (n := n + 1) hi' (by omega) (by omega)
    omega

/-- A year begins on 1 January and ends on 31 December. -/
theorem year_ends (leap : Bool) : (dayAt leap 0, monthAt leap 0) = (1, 1) ∧
    (dayAt leap (yearLength leap - 1), monthAt leap (yearLength leap - 1)) = (31, 12) := by
  cases leap <;> decide

/-! ## The day of year by the day number (R92) -/

theorem monthOf_eq (d : Nat) : monthOf d = monthAt (inLeapYear d) (dayOfYear d) := rfl

theorem dayOfMonth_eq (d : Nat) : dayOfMonth d = dayAt (inLeapYear d) (dayOfYear d) := rfl

theorem yearDay_eq (d : Nat) :
    dayOfYear d = (if d % 1461 < 366 then d % 1461 else (d % 1461 - 366) % 365) ∧
      yearInCycle d = (if d % 1461 < 366 then 0 else (d % 1461 - 366) / 365 + 1) := by
  unfold dayOfYear yearInCycle yearDay
  extract_lets r
  split <;> exact ⟨rfl, rfl⟩

theorem yearLength_eq (d : Nat) : yearLength (inLeapYear d) = if d % 1461 < 366 then 366 else 365 := by
  simp only [yearLength, inLeapYear, decide_eq_true_eq, (yearDay_eq d).2]
  split
  case isTrue h => rfl
  case isFalse h => exact if_neg (by omega)

theorem dayOfYear_lt (d : Nat) : dayOfYear d < yearLength (inLeapYear d) ∧ yearInCycle d ≤ 3 := by
  obtain ⟨hday, hyear⟩ := yearDay_eq d
  have hlen := yearLength_eq d
  have hr : d % 1461 < 1461 := Nat.mod_lt _ (by decide)
  by_cases h : d % 1461 < 366
  · rw [if_pos h] at hlen hday hyear
    omega
  · rw [if_neg h] at hlen hday hyear
    omega

/-- The next day is in the same year, or the first of the next. -/
theorem yearDay_follows (d : Nat) :
    (dayOfYear d + 1 < yearLength (inLeapYear d) → dayOfYear (d + 1) = dayOfYear d + 1 ∧
      yearInCycle (d + 1) = yearInCycle d ∧ yearOfCentury (d + 1) = yearOfCentury d) ∧
    (¬dayOfYear d + 1 < yearLength (inLeapYear d) → dayOfYear (d + 1) = 0 ∧
      yearOfCentury (d + 1) = yearOfCentury d + 1) := by
  have hlen := yearLength_eq d
  obtain ⟨hday, hyear⟩ := yearDay_eq d
  obtain ⟨hday', hyear'⟩ := yearDay_eq (d + 1)
  unfold yearOfCentury
  by_cases h : d % 1461 < 366
  · rw [if_pos h] at hlen hday hyear
    by_cases h' : d % 1461 + 1 < 366
    · have hnext : (d + 1) % 1461 < 366 := by omega
      rw [if_pos hnext] at hday' hyear'
      omega
    · have hnext : ¬(d + 1) % 1461 < 366 := by omega
      rw [if_neg hnext] at hday' hyear'
      omega
  · rw [if_neg h] at hlen hday hyear
    by_cases h' : (d + 1) % 1461 < 366
    · rw [if_pos h'] at hday' hyear'
      omega
    · rw [if_neg h'] at hday' hyear'
      obtain ⟨k, hk⟩ : ∃ k, d % 1461 = 366 + k := ⟨d % 1461 - 366, by omega⟩
      have hmod : (d + 1) % 1461 = 366 + (k + 1) := by omega
      have hdiv : (d + 1) / 1461 = d / 1461 := by omega
      rw [hk, Nat.add_sub_cancel_left] at hday hyear
      rw [hmod, Nat.add_sub_cancel_left] at hday' hyear'
      rw [hlen, hday, hyear, hday', hyear', hdiv]
      omega

/-- The weekday, the day of month, the month and the year of the next day. -/
theorem calendar_follows (d : Nat) :
    let days := if monthOf d = 2 then (if yearOfCentury d % 4 = 0 then 29 else 28)
      else if monthOf d = 4 ∨ monthOf d = 6 ∨ monthOf d = 9 ∨ monthOf d = 11 then 30 else 31
    weekday (d + 1) = weekday d % 7 + 1 ∧
    (dayOfMonth (d + 1), monthOf (d + 1), yearOfCentury (d + 1)) =
      if dayOfMonth d < days then (dayOfMonth d + 1, monthOf d, yearOfCentury d)
      else if monthOf d < 12 then (1, monthOf d + 1, yearOfCentury d)
      else (1, 1, yearOfCentury d + 1) := by
  intro days
  obtain ⟨hlt, hcycle⟩ := dayOfYear_lt d
  obtain ⟨hsame, hnext⟩ := yearDay_follows d
  have hdays : days = daysOf (inLeapYear d) (monthOf d) := by
    have hleap : yearOfCentury d % 4 = 0 ↔ yearInCycle d = 0 := by unfold yearOfCentury; omega
    simp only [days, daysOf, inLeapYear, hleap, decide_eq_true_eq]
  refine ⟨by unfold weekday; omega, ?_⟩
  rw [hdays]
  by_cases hin : dayOfYear d + 1 < yearLength (inLeapYear d)
  · obtain ⟨hday, hyear, hcentury⟩ := hsame hin
    have hleap : inLeapYear (d + 1) = inLeapYear d := by simp only [inLeapYear, hyear]
    obtain ⟨hinside, hend⟩ := day_follows hin
    rw [dayOfMonth_eq (d + 1), monthOf_eq (d + 1), hleap, hday, hcentury, dayOfMonth_eq d, monthOf_eq d]
    split
    case isTrue h =>
      obtain ⟨h1, h2⟩ := hinside h
      rw [h1, h2]
    case isFalse h =>
      obtain ⟨h12, h1, h2⟩ := hend h
      rw [if_pos h12, h1, h2]
  · obtain ⟨hday, hcentury⟩ := hnext hin
    have hlast : dayOfYear d = yearLength (inLeapYear d) - 1 := by omega
    obtain ⟨hfirst, -⟩ := year_ends (inLeapYear (d + 1))
    obtain ⟨-, hdec⟩ := year_ends (inLeapYear d)
    simp only [Prod.mk.injEq] at hfirst hdec
    rw [dayOfMonth_eq (d + 1), monthOf_eq (d + 1), hday, hfirst.1, hfirst.2, hcentury, dayOfMonth_eq d,
      monthOf_eq d, hlast, hdec.1, hdec.2]
    rfl

/-- The parts of a day's date fit their fields. -/
theorem calendar_bounds (d : Nat) : dayOfMonth d ≤ 31 ∧ monthOf d ≤ 12 ∧ 1 ≤ weekday d ∧ weekday d ≤ 7 ∧
    (d < 36525 → yearOfCentury d ≤ 99) := by
  obtain ⟨hlt, hcycle⟩ := dayOfYear_lt d
  obtain ⟨-, hm, hd⟩ := monthAt_bounds hlt
  refine ⟨hd, hm, ?_, ?_, fun h => ?_⟩
  · unfold weekday; omega
  · unfold weekday; omega
  · unfold yearOfCentury
    omega

end Sys2Proof.Machine

/-! The frame that the composer builds, by its positions (R7..R12, R95..R99, R174). -/

namespace Sys2Proof.Machine

/-! ## Bits at their seconds -/

/-- From second `i` on the symbols are the bits. -/
def HoldsBits (syms : List Symbol) (i : Nat) (bits : List Bool) : Prop :=
  ∀ j (h : j < bits.length), syms[i + j]? = some (bitSymbol bits[j])

section

variable {syms : List Symbol} {i : Nat} {a b : List Bool}

theorem HoldsBits.of_append (pre post : List Symbol) (bits : List Bool) :
    HoldsBits (pre ++ (bits.map bitSymbol ++ post)) pre.length bits := by
  intro j hj
  rw [List.getElem?_append_right (by omega), Nat.add_sub_cancel_left,
    List.getElem?_append_left (by simpa using hj), List.getElem?_map, List.getElem?_eq_getElem hj]
  rfl

theorem HoldsBits.left (h : HoldsBits syms i (a ++ b)) : HoldsBits syms i a := by
  intro j hj
  rw [h j (by rw [List.length_append]; omega), List.getElem_append_left hj]

theorem HoldsBits.right (h : HoldsBits syms i (a ++ b)) : HoldsBits syms (i + a.length) b := by
  intro j hj
  have hall := h (a.length + j) (by rw [List.length_append]; omega)
  rw [← Nat.add_assoc] at hall
  rw [hall, List.getElem_append_right (by omega)]
  simp only [Nat.add_sub_cancel_left]

theorem HoldsBits.split (h : HoldsBits syms i (a ++ b)) :
    HoldsBits syms i a ∧ HoldsBits syms (i + a.length) b := ⟨h.left, h.right⟩

/-- A held bit is 1 at its second exactly if it is set. -/
theorem HoldsBits.one (h : HoldsBits syms i a) {j : Nat} (hj : j < a.length) :
    syms[i + j]? = some .one ↔ a[j] = true := by
  rw [h j hj]
  cases a[j] <;> simp [bitSymbol]

theorem HoldsBits.bitsAt (h : HoldsBits syms i a) {k : Nat} (hk : a.length = k + 1 - i) :
    Machine.bitsAt i k syms = a := by
  apply List.ext_getElem?
  intro j
  simp only [Machine.bitsAt, positions, List.getElem?_map, List.getElem?_take, List.getElem?_drop]
  by_cases hj : j < k + 1 - i
  · rw [if_pos hj, h j (by omega), List.getElem?_eq_getElem (by omega)]
    cases a[j]'(by omega) <;> rfl
  · rw [if_neg hj, List.getElem?_eq_none (by omega)]
    rfl

end

/-- The number that the bits of a field stand for. -/
theorem bitsLE_sum (n v : Nat) :
    ((List.range n).map fun j => if v.testBit j then 2 ^ j else 0).sum = v % 2 ^ n := by
  induction n with
  | zero => simp [Nat.mod_one]
  | succ n ih =>
    rw [List.range_succ, List.map_append, List.sum_append, ih, Nat.mod_pow_succ, ← Nat.toNat_testBit]
    cases h : v.testBit n <;> simp [h]

theorem bitsLE_length (n v : Nat) : (bitsLE n v).length = n := by simp [bitsLE]

/-- A field held at second `i` on `n` places reads as its number, as far as the places go. -/
theorem HoldsBits.field_mod {syms : List Symbol} {i n v : Nat} (h : HoldsBits syms i (bitsLE n v)) :
    ((List.range n).map fun j => if syms[i + j]? = some .one then 2 ^ j else 0).sum = v % 2 ^ n := by
  rw [← bitsLE_sum]
  refine congrArg List.sum (List.map_congr_left fun j hj => ?_)
  have hlt : j < (bitsLE n v).length := by simpa [bitsLE] using hj
  have hone := h.one hlt
  have hbit : (bitsLE n v)[j] = v.testBit j := by simp [bitsLE]
  rw [hbit] at hone
  simp only [hone]

theorem HoldsBits.field {syms : List Symbol} {i n v : Nat} (h : HoldsBits syms i (bitsLE n v)) (hv : v < 2 ^ n) :
    ((List.range n).map fun j => if syms[i + j]? = some .one then 2 ^ j else 0).sum = v :=
  h.field_mod.trans (Nat.mod_eq_of_lt hv)

/-- The nibble that four bits stand for. -/
theorem bitsLE_foldr (n v : Nat) : (bitsLE n v).foldr (fun b v => 2 * v + b.toNat) 0 = v % 2 ^ n := by
  induction n generalizing v with
  | zero => simp [bitsLE, Nat.mod_one]
  | succ n ih =>
    have hsplit : bitsLE (n + 1) v = v.testBit 0 :: bitsLE n (v / 2) := by
      simp [bitsLE, List.range_succ_eq_map, Nat.testBit_succ, Function.comp_def]
    rw [hsplit, List.foldr_cons, ih, Nat.testBit_zero, Nat.pow_succ, Nat.mul_comm (2 ^ n), Nat.mod_mul]
    rcases Nat.mod_two_eq_zero_or_one v with h | h <;> simp [h, Nat.add_comm]

/-! ## The frame of a record (R8, R99) -/

/-- The symbols of a frame: M, the first data bits, H, the other data bits, the check, and zeros. -/
theorem Fields.symbols_eq (x : Fields) (n : Nat) : x.symbols n = .minute :: (x.firstBits.map bitSymbol ++
    .half :: (x.secondBits.map bitSymbol ++ ((bitsBE 4 x.crc.toNat).map bitSymbol ++
      List.replicate (n - 58) .zero))) := by
  simp [Fields.symbols]

section

variable (x : Fields) (n : Nat)

theorem Fields.firstBits_length : x.firstBits.length = 29 := by
  simp [Fields.firstBits, withParity, bitsLE_length]

theorem Fields.dateBits_length : x.dateBits.length = 18 := by simp [Fields.dateBits, bitsLE_length]

theorem Fields.secondBits_length : x.secondBits.length = 23 := by
  simp [Fields.secondBits, Fields.dateBits_length, bitsLE_length]

theorem Fields.holds_first : HoldsBits (x.symbols n) 1 x.firstBits := by
  rw [Fields.symbols_eq]
  exact HoldsBits.of_append [.minute] _ _

theorem Fields.holds_second : HoldsBits (x.symbols n) 31 x.secondBits := by
  have h := HoldsBits.of_append (.minute :: (x.firstBits.map bitSymbol ++ [.half]))
    ((bitsBE 4 x.crc.toNat).map bitSymbol ++ List.replicate (n - 58) .zero) x.secondBits
  simpa [Fields.symbols_eq, Fields.firstBits_length] using h

theorem Fields.holds_check : HoldsBits (x.symbols n) 54 (bitsBE 4 x.crc.toNat) := by
  have h := HoldsBits.of_append
    (.minute :: (x.firstBits.map bitSymbol ++ .half :: x.secondBits.map bitSymbol))
    (List.replicate (n - 58) .zero) (bitsBE 4 x.crc.toNat)
  simpa [Fields.symbols_eq, Fields.firstBits_length, Fields.secondBits_length] using h

theorem Fields.symbols_length : (x.symbols n).length = 58 + (n - 58) := by
  simp only [Fields.symbols_eq, List.length_cons, List.length_append, List.length_map, List.length_replicate,
    Fields.firstBits_length, Fields.secondBits_length]
  have : (bitsBE 4 x.crc.toNat).length = 4 := by simp [bitsBE]
  omega

theorem Fields.symbols_marks : (x.symbols n)[0]? = some .minute ∧ (x.symbols n)[30]? = some .half := by
  rw [Fields.symbols_eq]
  refine ⟨rfl, ?_⟩
  rw [List.getElem?_cons_succ, List.getElem?_append_right (by simp [Fields.firstBits_length])]
  simp [Fields.firstBits_length]

/-- The seconds from 58 on. -/
theorem Fields.symbols_tail {i : Nat} (h : 58 ≤ i) (hi : i < n) : (x.symbols n)[i]? = some .zero := by
  have hsplit : x.symbols n = (.minute :: (x.firstBits.map bitSymbol ++ .half ::
      (x.secondBits.map bitSymbol ++ (bitsBE 4 x.crc.toNat).map bitSymbol))) ++
        List.replicate (n - 58) .zero := by simp [Fields.symbols_eq]
  have hlen : (Symbol.minute :: (x.firstBits.map bitSymbol ++ .half ::
      (x.secondBits.map bitSymbol ++ (bitsBE 4 x.crc.toNat).map bitSymbol))).length = 58 := by
    simp [Fields.firstBits_length, Fields.secondBits_length, bitsBE]
  rw [hsplit, List.getElem?_append_right (by omega), hlen, List.getElem?_replicate, if_pos (by omega)]

/-! ## The checks pass (R174) -/

theorem bitSymbol_bit (b : Bool) : bitSymbol b = .zero ∨ bitSymbol b = .one := by cases b <;> simp [bitSymbol]

/-- Every symbol but those of seconds 0 and 30 is 0 or 1. -/
theorem Fields.symbols_known {i : Nat} (h1 : 1 ≤ i) (h30 : i ≠ 30) {y : Symbol}
    (hy : (x.symbols n)[i]? = some y) : y = .zero ∨ y = .one := by
  have hfirst := x.firstBits_length
  have hsecond := x.secondBits_length
  have hcheck : (bitsBE 4 x.crc.toNat).length = 4 := by simp [bitsBE]
  have hheld {k : Nat} {bits : List Bool} (hb : HoldsBits (x.symbols n) k bits) (hk : k ≤ i)
      (hlt : i < k + bits.length) : y = .zero ∨ y = .one := by
    obtain ⟨j, rfl⟩ := Nat.exists_eq_add_of_le hk
    rw [hb j (by omega)] at hy
    obtain rfl := Option.some.inj hy
    exact bitSymbol_bit _
  by_cases ha : i < 30
  · exact hheld (x.holds_first n) h1 (by omega)
  by_cases hb : i < 54
  · exact hheld (x.holds_second n) (by omega) (by omega)
  by_cases hc : i < 58
  · exact hheld (x.holds_check n) (by omega) (by omega)
  · have hlt := (List.getElem?_eq_some_iff.mp hy).1
    rw [x.symbols_length] at hlt
    rw [x.symbols_tail n (by omega) (by omega)] at hy
    exact .inl (Option.some.inj hy).symm

theorem Fields.symbols_noInvalid : (x.symbols n).contains .invalid = false := by
  rw [contains_invalid_iff]
  intro i hi
  obtain ⟨h0, h30⟩ := x.symbols_marks n
  rcases Nat.eq_zero_or_pos i with rfl | hpos
  · rw [h0] at hi
    cases hi
  · by_cases h : i = 30
    · rw [h, h30] at hi
      cases hi
    · rcases x.symbols_known n hpos h hi with h | h <;> cases h

theorem evenParity_withParity (bits : List Bool) : evenParity (withParity bits) = false := by
  rw [withParity, evenParity_append, Bool.xor_self]

/-- The bits of the frame's fields at their seconds. -/
structure FieldsHeld (syms : List Symbol) : Prop where
  nibble : HoldsBits syms 1 (bitsLE 4 x.nibble)
  flags : HoldsBits syms 5 [x.low, x.leap = .insert, x.leap = .delete, x.zoneAnn]
  zone : HoldsBits syms 9 (bitsLE 2 x.zone)
  minute : HoldsBits syms 11 (withParity (bitsLE 4 (x.civMinute % 60 % 10) ++ bitsLE 3 (x.civMinute % 60 / 10)))
  hour : HoldsBits syms 19 (withParity (bitsLE 4 (x.civMinute / 60 % 10) ++ bitsLE 2 (x.civMinute / 60 / 10)))
  dayUnits : HoldsBits syms 26 (bitsLE 4 (dayOfMonth x.civDay % 10))
  date : HoldsBits syms 31 (x.dateBits ++ [evenParity (bitsLE 4 (dayOfMonth x.civDay % 10) ++ x.dateBits)])
  quality : HoldsBits syms 50 (bitsLE 2 x.quality)
  nextZone : HoldsBits syms 52 (bitsLE 2 x.nextZone)

theorem Fields.held : FieldsHeld x (x.symbols n) := by
  have hfirst := x.holds_first n
  have hsecond := x.holds_second n
  unfold Fields.firstBits at hfirst
  unfold Fields.secondBits at hsecond
  obtain ⟨hfirst, hday⟩ := hfirst.split
  obtain ⟨hfirst, hhour⟩ := hfirst.split
  obtain ⟨hfirst, hminute⟩ := hfirst.split
  obtain ⟨hfirst, hzone⟩ := hfirst.split
  obtain ⟨hnibble, hflags⟩ := hfirst.split
  obtain ⟨hsecond, hnext⟩ := hsecond.split
  obtain ⟨hdate, hquality⟩ := hsecond.split
  exact ⟨hnibble, hflags, hzone, hminute, hhour, hday, hdate, hquality, hnext⟩

/-- The composed symbols pass every check. -/
theorem Fields.symbols_good (hn : 59 ≤ n ∧ n ≤ 61) (start : Instant) :
    frameFault { start := start, syms := x.symbols n, excess := 0 } = none := by
  have hlen := x.symbols_length n
  have hheld := x.held n
  have hmarkers : markersHold (x.symbols n) = true :=
    markersHold_iff.mpr ⟨(x.symbols_marks n).2, fun i y h1 h30 => x.symbols_known n h1 h30⟩
  have hminute := hheld.minute.bitsAt (k := 18) (by simp [withParity, bitsLE_length])
  have hhour := hheld.hour.bitsAt (k := 25) (by simp [withParity, bitsLE_length])
  have hday := hheld.dayUnits.bitsAt (k := 29) (by simp [bitsLE_length])
  have hdate := hheld.date.bitsAt (k := 49) (by simp [Fields.dateBits_length])
  have hparity : parityHolds (x.symbols n) = true := by
    rw [parityHolds, hminute, hhour, hday, hdate, evenParity_withParity, evenParity_withParity,
      ← List.append_assoc, evenParity_append, Bool.xor_self]
    rfl
  have hcrc : crcHolds (x.symbols n) = true := by
    rw [crcHolds, (x.holds_first n).bitsAt (by rw [x.firstBits_length]),
      (x.holds_second n).bitsAt (by rw [x.secondBits_length]), (x.holds_check n).bitsAt (by simp [bitsBE])]
    exact decide_eq_true rfl
  rw [frameFault_eq]
  dsimp only
  rw [if_neg (by rw [hlen]; omega), if_neg (by rw [x.symbols_noInvalid]; decide), if_neg (not_not.mpr hmarkers),
    if_neg (not_not.mpr hparity), if_neg (not_not.mpr hcrc)]

/-- The nibble and its position as the monitor hears them. -/
theorem Fields.symbols_heard : heardNibble (x.symbols n) = BitVec.ofNat 4 x.nibble ∧
    heardLow (x.symbols n) = x.low := by
  have hheld := x.held n
  constructor
  · rw [heardNibble, hheld.nibble.bitsAt (by simp [bitsLE_length]), bitsLE_foldr]
    exact BitVec.eq_of_toNat_eq (by simp)
  · rw [heardLow, symbolBit_getD, oneAt]
    have hone := hheld.flags.one (j := 0) (by simp)
    cases hl : x.low <;> simp_all

end

end Sys2Proof.Machine

/-! The composer's record of a frame (R91, R95..R101). -/

namespace Sys2Proof.Machine

/-! ## The date's fields at their seconds -/

/-- The bits of the date at their seconds. -/
structure DateHeld (d : Nat) (syms : List Symbol) : Prop where
  dayTens : HoldsBits syms 31 (bitsLE 2 (dayOfMonth d / 10))
  weekday : HoldsBits syms 33 (bitsLE 3 (weekday d))
  monthUnits : HoldsBits syms 36 (bitsLE 4 (monthOf d % 10))
  monthTens : HoldsBits syms 40 (bitsLE 1 (monthOf d / 10))
  yearUnits : HoldsBits syms 41 (bitsLE 4 (yearOfCentury d % 10))
  yearTens : HoldsBits syms 45 (bitsLE 4 (yearOfCentury d / 10))

theorem FieldsHeld.dateHeld {x : Fields} {syms : List Symbol} (h : FieldsHeld x syms) :
    DateHeld x.civDay syms := by
  have hdate := h.date.left
  unfold Fields.dateBits at hdate
  obtain ⟨hdate, hyt⟩ := hdate.split
  obtain ⟨hdate, hyu⟩ := hdate.split
  obtain ⟨hdate, hmt⟩ := hdate.split
  obtain ⟨hdate, hmu⟩ := hdate.split
  obtain ⟨hdt, hwd⟩ := hdate.split
  exact ⟨hdt, hwd, hmu, hmt, hyu, hyt⟩

theorem FieldsHeld.low_bits {x : Fields} {syms : List Symbol} (h : FieldsHeld x syms) :
    (syms[6]? = some .one ↔ x.leap = .insert) ∧ (syms[7]? = some .one ↔ x.leap = .delete) ∧
      (syms[8]? = some .one ↔ x.zoneAnn = true) := by
  have h1 := h.flags.one (j := 1) (by simp)
  have h2 := h.flags.one (j := 2) (by simp)
  have h3 := h.flags.one (j := 3) (by simp)
  simp only [List.getElem_cons_succ, List.getElem_cons_zero, decide_eq_true_eq] at h1 h2 h3
  exact ⟨h1, h2, h3⟩

/-! ## What the composer is handed (R79, R95, R96) -/

theorem leapFields_length (x : Option Entry) : 59 ≤ (leapFields x).2 ∧ (leapFields x).2 ≤ 61 := by
  unfold leapFields
  split
  · decide
  · dsimp only
    repeat' split
    all_goals decide

theorem find?_first {α : Type} {p : α → Bool} {xs before rest : List α} {x : α}
    (h : xs = before ++ x :: rest) (hx : p x = true) (hb : ∀ y ∈ before, ¬p y = true) : xs.find? p = some x :=
  List.find?_eq_some_iff_append.mpr ⟨hx, before, rest, h, fun y hy => by simpa using hb y hy⟩

section

variable {t : Schedule}

theorem Schedule.leapHandOver_none (h : ∀ x ∈ t.entries, ¬(x.announcing = true ∧ x.kind ≠ .zoneChange)) :
    t.leapHandOver = none :=
  List.find?_eq_none.mpr fun x hx => by simpa [Entry.isLeap] using h x hx

theorem Schedule.leapHandOver_first {before rest : List Entry} {x : Entry}
    (h : t.entries = before ++ x :: rest) (hx : x.announcing = true ∧ x.kind ≠ .zoneChange)
    (hb : ∀ y ∈ before, ¬(y.announcing = true ∧ y.kind ≠ .zoneChange)) : t.leapHandOver = some x :=
  find?_first h (by simpa [Entry.isLeap] using hx) fun y hy => by simpa [Entry.isLeap] using hb y hy

theorem Schedule.zoneHandOver_none (h : ∀ x ∈ t.entries, ¬(x.announcing = true ∧ x.kind = .zoneChange)) :
    t.zoneHandOver = none :=
  List.find?_eq_none.mpr fun x hx => by simpa [Entry.isLeap] using h x hx

theorem Schedule.zoneHandOver_first {before rest : List Entry} {x : Entry}
    (h : t.entries = before ++ x :: rest) (hx : x.announcing = true ∧ x.kind = .zoneChange)
    (hb : ∀ y ∈ before, ¬(y.announcing = true ∧ y.kind = .zoneChange)) : t.zoneHandOver = some x :=
  find?_first h (by simpa [Entry.isLeap] using hx) fun y hy => by simpa [Entry.isLeap] using hb y hy

end

theorem leapFields_some (x : Entry) :
    (leapFields (some x)).1 = (if x.kind = .leapInsert then .insert else .delete) ∧
      (leapFields (some x)).2 =
        if x.altered = some true then (if x.kind = .leapInsert then 61 else 59) else 60 := by
  unfold leapFields
  by_cases hk : x.kind = .leapInsert <;> by_cases ha : x.altered = some true <;> simp [hk, ha]

/-- The civil day is a day of the century. -/
theorem civilMinute_lt (f : Nat) (q : Int) : civilMinute f q < 52596000 := by
  have h := Int.emod_lt_of_pos ((f : Int) + 15 * q) (show (0 : Int) < 52596000 by decide)
  have h0 := Int.emod_nonneg ((f : Int) + 15 * q) (show (52596000 : Int) ≠ 0 by decide)
  unfold civilMinute centuryMinutes
  omega

theorem Timebase.quality_lt (t : Timebase) : t.quality < 4 := by
  unfold Timebase.quality
  repeat' split
  all_goals decide

end Sys2Proof.Machine

namespace Sys2Proof

open Sys2Proof.Machine

/-- Settles O48: the frame is its fields' bits at their seconds, from which the checks and the fields are read
off; the calendar goes by the starts of the months. -/
theorem composedFrameIsGood : Obligations.ComposedFrameIsGood := by
  refine ⟨fun s f start => ?checks, fun s f => ?fields, rfl, fun d _ => calendar_follows d⟩
  case checks =>
    intro r
    have hlen := leapFields_length s.sched.leapHandOver
    have hsyms : r.syms = (s.frameFields f).symbols r.length := rfl
    have hr : r.length = (leapFields s.sched.leapHandOver).2 := rfl
    obtain ⟨hnibble, hlow⟩ := (s.frameFields f).symbols_heard r.length
    refine ⟨(s.frameFields f).symbols_good _ hlen start, ?_,
      (differing_eq_zero_iff _ _).mpr rfl, hnibble, hlow⟩
    rw [hsyms, Fields.symbols_length, hr]
    omega
  case fields =>
    intro r bit field q civil d minute hour isLeap isZone
    have hheld : FieldsHeld (s.frameFields f) r.syms := (s.frameFields f).held _
    have hdate : DateHeld d r.syms := hheld.dateHeld
    obtain ⟨hdom, hmonth, hwd1, hwd7, hyear⟩ := calendar_bounds d
    have hcivil : civil < 52596000 := civilMinute_lt f q
    have hyear := hyear (by omega)
    have hmin : (s.frameFields f).civMinute < 1440 := Nat.mod_lt _ (by decide)
    obtain ⟨hb6, hb7, hb8⟩ := hheld.low_bits
    obtain ⟨hm1, hm2⟩ := hheld.minute.left.split
    obtain ⟨hh1, hh2⟩ := hheld.hour.left.split
    refine ⟨rfl, ?_, ?_, ?_, ?_, ?_, ?_, hb6, hb7, hb8, fun hnone => ?_, fun before x rest hsplit hx hb => ?_, rfl,
      fun hnone => ?_, fun before x rest z hsplit hx hz hb => ?_, ?_, ?_, ?_, ?_, rfl,
      ((s.frameFields f).symbols_marks _).1, ((s.frameFields f).symbols_marks _).2,
      fun i h hi => (s.frameFields f).symbols_tail _ h hi⟩
    · exact Prod.ext (hm1.field (by omega)) (hm2.field (by omega))
    · exact Prod.ext (hh1.field (by omega)) (hh2.field (by omega))
    · exact Prod.ext (hheld.dayUnits.field (by omega)) (hdate.dayTens.field (by omega))
    · exact hdate.weekday.field (by omega)
    · exact Prod.ext (hdate.monthUnits.field (by omega)) (hdate.monthTens.field (by omega))
    · exact Prod.ext (hdate.yearUnits.field (by omega)) (hdate.yearTens.field (by omega))
    · have hleap := Schedule.leapHandOver_none hnone
      exact ⟨congrArg (fun x => (leapFields x).1) hleap, congrArg (fun x => (leapFields x).2) hleap⟩
    · have hleap := Schedule.leapHandOver_first hsplit hx hb
      obtain ⟨hcode, hlength⟩ := leapFields_some x
      exact ⟨(congrArg (fun x => (leapFields x).1) hleap).trans hcode,
        (congrArg (fun x => (leapFields x).2) hleap).trans hlength⟩
    · have hzone := Schedule.zoneHandOver_none hnone
      exact ⟨congrArg Option.isSome hzone,
        congrArg (fun x : Option Entry => (x.bind (·.newZone)).getD s.sched.zone) hzone⟩
    · have hzone := Schedule.zoneHandOver_first hsplit hx hb
      refine ⟨congrArg Option.isSome hzone,
        (congrArg (fun x : Option Entry => (x.bind (·.newZone)).getD s.sched.zone) hzone).trans ?_⟩
      simp [hz]
    · exact hheld.zone.field_mod
    · exact hheld.nextZone.field_mod
    · have hquality : r.quality = s.tb.quality := rfl
      refine hquality.trans ?_
      cases h : s.tb.disc <;> simp [Timebase.quality, h]
    · exact hheld.quality.field s.tb.quality_lt

end Sys2Proof

/-! The keyer's part of a minute boundary (R102, R118, R122, R124, R125, R127..R131). -/

namespace Sys2Proof.Machine

/-! ## What the boundary makes of what is held -/

/-- What a keyer holds for its next minute boundary. -/
structure KeyerHeld where
  pendingMode : Option Mode
  offReq : Option OffReq
  maint : Option Maint
  deferred : Bool

/-- The keyer, holding `h`. -/
def Keyer.holding (k : Keyer) (h : KeyerHeld) : Keyer :=
  { k with pendingMode := h.pendingMode, offReq := h.offReq, maint := h.maint, deferred := h.deferred }

theorem Keyer.holding_self {k : Keyer} {x : Option Maint} (hp : k.pendingMode = none) (ho : k.offReq = none)
    (hm : k.maint = x) : k.holding ⟨none, none, x, k.deferred⟩ = k := by
  cases k
  simp_all [Keyer.holding]

/-- The mode becomes `m`, RESUME_FAILED is raised if `failed`, and the keyer then holds `h`. -/
def State.boundaryMade (s : State) (m : Mode) (failed : Bool) (h : KeyerHeld) : State :=
  { (s.changeMode m).raiseIf failed .resumeFailed with key := (s.changeMode m).key.holding h }

section

variable {s : State} {m : Mode} {h : KeyerHeld}

theorem State.changeMode_holding (s : State) (m : Mode) (h : KeyerHeld) :
    { s with key := s.key.holding h }.changeMode m = s.boundaryMade m false h := by
  by_cases hm : s.key.mode = m
  · rw [State.boundaryMade, State.changeMode_same hm]
    exact State.changeMode_same hm
  · have hchanged : s.changeMode m = _ := if_neg hm
    rw [State.boundaryMade, hchanged]
    refine (if_neg hm).trans ?_
    cases m <;> rfl

theorem State.boundaryMade_stays (s : State) (failed : Bool) (h : KeyerHeld) :
    s.boundaryMade s.key.mode failed h =
      { s.raiseIf failed .resumeFailed with key := s.key.holding h } := by
  rw [State.boundaryMade, State.changeMode_same rfl]

theorem State.boundaryMode_pending_ok (hp : s.key.pendingMode = some m) (hc : s.onAirChecks m = true) :
    s.boundaryMode = s.boundaryMade m false ⟨none, s.key.offReq, s.key.maint, s.key.deferred⟩ := by
  rw [State.boundaryMode, hp]
  refine (if_pos hc).trans ?_
  exact s.changeMode_holding m ⟨none, s.key.offReq, s.key.maint, s.key.deferred⟩

theorem State.boundaryMode_pending_failed (hp : s.key.pendingMode = some m) (hc : s.onAirChecks m = false) :
    s.boundaryMode =
      s.boundaryMade s.key.mode true ⟨none, s.key.offReq, s.key.maint, s.key.deferred⟩ := by
  rw [State.boundaryMode, hp, State.boundaryMade_stays]
  exact if_neg (by simp [hc])

theorem State.boundaryMode_deferred {r : OffReq} (hp : s.key.pendingMode = none) (ho : s.key.offReq = some r)
    (hd : s.key.hold = true ∨ s.sched.announcing = true) : s.boundaryMode =
      s.boundaryMade s.key.mode false ⟨none, some { r with deferred := true }, s.key.maint, true⟩ := by
  rw [State.boundaryMode, hp, ho, State.boundaryMade_stays]
  refine (if_pos (by simpa using hd)).trans ?_
  rw [← hp]
  rfl

theorem State.boundaryMode_offAir {r : OffReq} (hp : s.key.pendingMode = none) (ho : s.key.offReq = some r)
    (hd : ¬(s.key.hold = true ∨ s.sched.announcing = true)) : s.boundaryMode =
      s.boundaryMade .offAir false ⟨none, none, r.until_.map fun e =>
        { endDay := e.1, endMinute := e.2, resume := s.key.mode, due := false }, false⟩ := by
  rw [State.boundaryMode, hp, ho]
  refine (if_neg (by simpa using hd)).trans ?_
  have hpend : (s.changeMode .offAir).key.pendingMode = none := by simp [hp]
  rw [← hpend]
  rfl

theorem State.boundaryMode_notDue {x : Maint} (hp : s.key.pendingMode = none) (ho : s.key.offReq = none)
    (hm : s.key.maint = some x) (hd : x.due = false) : s.boundaryMode =
      s.boundaryMade s.key.mode false ⟨none, none, some x, s.key.deferred⟩ := by
  rw [State.boundaryMode, hp, ho, hm, State.boundaryMade_stays, Keyer.holding_self hp ho hm]
  exact if_pos (by simp [hd])

theorem State.boundaryMode_resumed {x : Maint} (hp : s.key.pendingMode = none) (ho : s.key.offReq = none)
    (hm : s.key.maint = some x) (hd : x.due = true) (hc : s.onAirChecks x.resume = true) : s.boundaryMode =
      s.boundaryMade x.resume false ⟨none, none, none, s.key.deferred⟩ := by
  rw [State.boundaryMode, hp, ho, hm]
  refine (if_neg (by simp [hd])).trans ((if_pos hc).trans ?_)
  rw [← State.changeMode_holding, ← hp, ← ho]
  rfl

theorem State.boundaryMode_resumeFailed {x : Maint} (hp : s.key.pendingMode = none) (ho : s.key.offReq = none)
    (hm : s.key.maint = some x) (hd : x.due = true) (hc : s.onAirChecks x.resume = false) : s.boundaryMode =
      s.boundaryMade s.key.mode true ⟨none, none, some x, s.key.deferred⟩ := by
  rw [State.boundaryMode, hp, ho, hm, State.boundaryMade_stays, Keyer.holding_self hp ho hm]
  exact (if_neg (by simp [hd])).trans (if_neg (by simp [hc]))

theorem State.boundaryMode_idle (hp : s.key.pendingMode = none) (ho : s.key.offReq = none)
    (hm : s.key.maint = none) : s.boundaryMode =
      s.boundaryMade s.key.mode false ⟨none, none, none, s.key.deferred⟩ := by
  rw [State.boundaryMode, hp, ho, hm, State.boundaryMade_stays, Keyer.holding_self hp ho hm]
  rfl

end

/-! ## The frame that ends, and the maintenance that falls due (R124, R129) -/

/-- The sent history after the current frame has ended. -/
def Keyer.endedHistory (k : Keyer) : List Keyed :=
  match k.current with
  | none => k.history
  | some f => keepLast 4 (k.history ++ [f])

theorem Keyer.endFrame_eq (k : Keyer) : k.endFrame = { k with current := none, history := k.endedHistory } := by
  cases hc : k.current with
  | none => cases k; simp_all [Keyer.endFrame, Keyer.endedHistory]
  | some f => simp [Keyer.endFrame, Keyer.endedHistory, hc]

/-- The end of the maintenance is reached at this boundary. -/
def State.dueAt (s : State) (x : Maint) : Bool :=
  x.due || s.key.windowReport || (s.tb.timeSet && linearMinute x.endDay x.endMinute ≤ s.tb.minute)

/-- The state on which the boundary acts by what is held. -/
def State.frameEnded (s : State) : State :=
  { s with key := { s.key with
      current := none, history := s.key.endedHistory
      maint := s.key.maint.map fun x => { x with due := s.dueAt x } } }

theorem State.maintenanceDue_ended (s : State) :
    State.maintenanceDue { s with key := s.key.endFrame } = s.frameEnded := by
  rw [Keyer.endFrame_eq]
  unfold State.maintenanceDue State.frameEnded
  cases hm : s.key.maint with
  | none => simp
  | some x => simp [State.dueAt]

theorem State.keyerBoundary_eq (s : State) : s.keyerBoundary =
    { s.frameEnded.boundaryMode.takeFrame with key := { s.frameEnded.boundaryMode.takeFrame.key with
        windowReport := false } } := by
  rw [← State.maintenanceDue_ended]
  rfl

/-! ## What a boundary leaves (R18, R34, R102, R128, R130, R184) -/

/-- The record is that of the minute now starting. -/
def State.RecordNow (s : State) (r : FrameRecord) : Prop :=
  s.tb.timeSet = true ∧ r.day = s.tb.day ∧ r.minute = minuteOfDay s.tb.sec

theorem State.recordForNow_some {s : State} {r : FrameRecord} (hr : s.comp.next = some r) (h : s.RecordNow r) :
    s.recordForNow = some r := by
  obtain ⟨ht, hd, hm⟩ := h
  simp [State.recordForNow, hr, ht, hd, hm]

theorem State.recordForNow_none {s : State} (h : ∀ r, s.comp.next = some r → ¬s.RecordNow r) :
    s.recordForNow = none := by
  unfold State.recordForNow
  split
  · rfl
  case h_2 r hr => exact if_neg fun hc => h r hr (by simpa [State.RecordNow, and_assoc] using hc)

section

variable {s : State} {m : Mode} {failed : Bool} {h : KeyerHeld}

theorem State.boundaryMade_frame (s : State) (m : Mode) (failed : Bool) (h : KeyerHeld) :
    let v := s.boundaryMade m failed h
    v = { s with tb := v.tb, key := v.key, mon := v.mon, cond := v.cond } ∧
      (v.tb.timeSet, v.tb.day, v.tb.sec) = (s.tb.timeSet, s.tb.day, s.tb.sec) := by
  refine ⟨?_, by simp [State.boundaryMade]⟩
  apply State.ext <;> simp [State.boundaryMade]

/-- The keyer after the boundary has acted by what is held, where no frame is in progress. -/
theorem State.boundaryMade_key (hc : s.key.current = none) (hh : s.key.mode ≠ .timeCode → s.key.history = []) :
    (s.boundaryMade m failed h).key = { s.key.holding h with
      mode := m
      history := if m = s.key.mode then s.key.history else []
      gen := if m = .testPattern ∧ s.key.mode ≠ .testPattern then BitVec.allOnes 15 else s.key.gen } := by
  by_cases hm : s.key.mode = m
  · have hkey : (s.boundaryMade m failed h).key = s.key.holding h := by
      rw [State.boundaryMade, State.changeMode_same hm]
    rw [hkey, if_pos hm.symm, if_neg (fun hn => hn.2 (hm.trans hn.1)), ← hm]
    rfl
  · have hkey : (s.boundaryMade m failed h).key = (s.key.enter m).holding h := by
      rw [← State.changeMode_key hm]
      rfl
    rw [hkey, if_neg (Ne.symm hm)]
    have hgen : (if m = .testPattern then genSeed else s.key.gen) =
        if m = .testPattern ∧ s.key.mode ≠ .testPattern then BitVec.allOnes 15 else s.key.gen := by
      by_cases ht : m = .testPattern
      · rw [if_pos ht, if_pos ⟨ht, fun he => hm (he.trans ht.symm)⟩]
        rfl
      · rw [if_neg ht, if_neg (fun hn => ht hn.1)]
    have hhistory : (if s.key.mode = .timeCode then [] else s.key.history) = [] := by
      split
      · rfl
      · exact hh (by assumption)
    simp only [Keyer.enter, Keyer.holding, hgen, hhistory, hc, ite_self]

theorem State.boundaryMade_mon : (s.boundaryMade m failed h).mon = (s.changeMode m).mon := by
  simp [State.boundaryMade]

theorem State.boundaryMade_live : (s.boundaryMade m failed h).cond.live = s.cond.live := by
  have hmode : (s.changeMode m).cond.live = s.cond.live :=
    congrArg TickPart.live (s.changeMode_tickPart m)
  cases failed <;> exact hmode

theorem State.changeMode_views_other {i : Nat} (hi : i ≠ 17) : (s.changeMode m).views i = s.views i := by
  by_cases hm : s.key.mode = m
  · rw [State.changeMode_same hm]
  · have hchanged : s.changeMode m = _ := if_neg hm
    rw [hchanged, State.raise_views_other _ _ hi]
    cases m <;> rfl

theorem State.boundaryMade_views :
    (s.key.mode ≠ m → (s.boundaryMade m failed h).views 17 = (true, true)) ∧
      (failed = true → (s.boundaryMade m failed h).views 24 = (true, true)) ∧
      (s.boundaryMade m failed h).views 20 = s.views 20 := by
  have hcond (i : Nat) : (s.boundaryMade m failed h).views i =
      ((s.changeMode m).raiseIf failed .resumeFailed).views i := State.views_congr rfl i
  refine ⟨fun hm => ?_, fun hf => ?_, ?_⟩
  · rw [hcond, State.raiseIf_views_other _ _ _ (by decide), State.changeMode_views hm]
  · rw [hcond, hf]
    exact State.raise_views_self _ .resumeFailed
  · rw [hcond, State.raiseIf_views_other _ _ _ (by decide), State.changeMode_views_other (by decide)]

end

/-! ## The frame taken (R102, R106, R128) -/

section

variable {s : State}

theorem State.takeFrame_other (h : s.key.mode ≠ .timeCode) :
    s.takeFrame = { s with comp := { s.comp with next := none } } := by
  simp [State.takeFrame, h]

theorem State.takeFrame_taken {r : FrameRecord} (h : s.key.mode = .timeCode) (hr : s.recordForNow = some r) :
    s.takeFrame = { s with
      key := { s.key with current := some {
        record := r, edgeAt := s.now, edgeDay := s.tb.day, edgeSec := s.tb.sec } }
      comp := { s.comp.taken r with next := none } } := by
  simp [State.takeFrame, h, hr]

theorem State.takeFrame_blank (h : s.key.mode = .timeCode) (hr : s.recordForNow = none) :
    s.takeFrame = { (s.raise .blankMinute).count .blankMinutes 1 with comp := { s.comp with next := none } } := by
  simp [State.takeFrame, h, hr]

/-- What TIME_CODE makes of the next-frame slot, `x` being the state that the boundary's mode leaves. -/
structure State.TakesFrame (x w : State) : Prop where
  history : w.key.history = x.key.history
  taken : ∀ r, x.comp.next = some r → x.RecordNow r →
    w.key.current = some { record := r, edgeAt := x.now, edgeDay := x.tb.day, edgeSec := x.tb.sec } ∧
      w.comp = { x.comp.taken r with next := none } ∧ w.cond = x.cond
  blank : (∀ r, x.comp.next = some r → ¬x.RecordNow r) →
    w.key.current = x.key.current ∧ w.comp = { x.comp with next := none } ∧ w.views 20 = (true, true) ∧
      w.cond.live = (x.count .blankMinutes 1).cond.live

theorem State.takeFrame_takes (h : s.key.mode = .timeCode) : s.TakesFrame s.takeFrame := by
  refine ⟨?_, fun r hr hn => ?_, fun hn => ?_⟩
  · cases hr : s.recordForNow with
    | some r => rw [State.takeFrame_taken h hr]
    | none =>
      rw [State.takeFrame_blank h hr]
      rfl
  · rw [State.takeFrame_taken h (State.recordForNow_some hr hn)]
    exact ⟨rfl, rfl, rfl⟩
  · rw [State.takeFrame_blank h (State.recordForNow_none hn)]
    refine ⟨rfl, rfl, ?_, rfl⟩
    exact (State.views_congr rfl 20).trans (s.raise_views_self .blankMinute)

/-- The frame's part leaves the rest of the keyer and every event but its own. -/
theorem State.takeFrame_keeps (s : State) :
    s.takeFrame.key = { s.key with current := s.takeFrame.key.current } ∧ s.takeFrame.comp.next = none ∧
      s.takeFrame = { s with comp := s.takeFrame.comp, key := s.takeFrame.key, cond := s.takeFrame.cond } ∧
      ∀ i, i ≠ 20 → s.takeFrame.views i = s.views i := by
  by_cases hm : s.key.mode = .timeCode
  · cases hr : s.recordForNow with
    | some r =>
      rw [State.takeFrame_taken hm hr]
      exact ⟨rfl, rfl, rfl, fun _ _ => rfl⟩
    | none =>
      rw [State.takeFrame_blank hm hr]
      exact ⟨rfl, rfl, rfl, fun i hi => (State.views_congr rfl i).trans (s.raise_views_other .blankMinute hi)⟩
  · rw [State.takeFrame_other hm]
    exact ⟨rfl, rfl, rfl, fun _ _ => rfl⟩

end

end Sys2Proof.Machine

/-! The minute boundary by what the keyer holds, and the second edge that makes it (R118, R122, R125, R127). -/

namespace Sys2Proof.Machine

/-! ## Which of the things held is acted on -/

/-- What the boundary makes of what an ordered keyer holds: the mode, whether a move fails, and what is held
then. -/
structure State.HeldActedOn (s : State) (m : Mode) (failed : Bool) (h : KeyerHeld) : Prop where
  stays : failed = true → m = s.key.mode
  pending : ∀ x, s.key.pendingMode = some x → h.pendingMode = none ∧
    (s.onAirChecks x = true → m = x ∧ s.key.mode ≠ m) ∧
    (s.onAirChecks x = false → m = s.key.mode ∧ failed = true)
  offReq : ∀ r, s.key.offReq = some r →
    ((s.key.hold = true ∨ ∃ x ∈ s.sched.entries, x.announcing = true) →
      m = s.key.mode ∧ h.offReq = some { r with deferred := true } ∧ h.deferred = true) ∧
    (s.key.hold = false → (∀ x ∈ s.sched.entries, x.announcing = false) →
      m = .offAir ∧ s.key.mode ≠ m ∧ h.offReq = none ∧ h.deferred = false ∧
      h.maint = r.until_.map (fun e => { endDay := e.1, endMinute := e.2, resume := s.key.mode, due := false }))
  maint : ∀ x, s.key.maint = some x →
    (s.dueAt x = false → m = .offAir ∧ h.maint = some x) ∧
    (s.dueAt x = true → s.onAirChecks x.resume = true → m = x.resume ∧ h.maint = none) ∧
    (s.dueAt x = true → s.onAirChecks x.resume = false →
      m = .offAir ∧ h.maint = some { x with due := true } ∧ failed = true)
  idle : s.key.pendingMode = none → s.key.offReq = none → s.key.maint = none →
    m = s.key.mode ∧ (h.pendingMode, h.offReq, h.maint) = (none, none, none) ∧ failed = false

theorem Schedule.announcing_iff {t : Schedule} :
    t.announcing = true ↔ ∃ x ∈ t.entries, x.announcing = true := List.any_eq_true

/-- An ordered keyer holds one thing at most, and the boundary acts on that. -/
theorem State.frameEnded_acts {s : State} (ho : s.key.Ordered) : ∃ m failed h,
    s.frameEnded.boundaryMode = s.frameEnded.boundaryMade m failed h ∧ s.HeldActedOn m failed h := by
  cases hp : s.key.pendingMode with
  | some x =>
    obtain ⟨hne, -, hoff, hmaint⟩ := ho.pending x hp
    cases hc : s.onAirChecks x with
    | true =>
      refine ⟨x, false, _, State.boundaryMode_pending_ok (s := s.frameEnded) hp hc, nofun, fun y hy => ?_,
        by simp [hoff], by simp [hmaint], by simp [hp]⟩
      obtain rfl : x = y := Option.some.inj (hp.symm.trans hy)
      exact ⟨rfl, fun _ => ⟨rfl, Ne.symm hne⟩, fun hf => by simp [hc] at hf⟩
    | false =>
      refine ⟨s.key.mode, true, _, State.boundaryMode_pending_failed (s := s.frameEnded) hp hc, fun _ => rfl,
        fun y hy => ?_, by simp [hoff], by simp [hmaint], by simp [hp]⟩
      obtain rfl : x = y := Option.some.inj (hp.symm.trans hy)
      exact ⟨rfl, fun ht => by simp [hc] at ht, fun _ => ⟨rfl, rfl⟩⟩
  | none =>
    cases hr : s.key.offReq with
    | some r =>
      obtain ⟨hon, hmaint⟩ := ho.offReq (by simp [hr])
      by_cases hd : s.key.hold = true ∨ s.sched.announcing = true
      · refine ⟨s.key.mode, false, _, State.boundaryMode_deferred (s := s.frameEnded) hp hr hd, nofun,
          by simp [hp], fun y hy => ?_, by simp [hmaint], by simp [hr]⟩
        obtain rfl : r = y := Option.some.inj (hr.symm.trans hy)
        refine ⟨fun _ => ⟨rfl, rfl, rfl⟩, fun hh hs => ?_⟩
        rcases hd with hd | hd
        · simp [hh] at hd
        · obtain ⟨x, hx, hax⟩ := Schedule.announcing_iff.mp hd
          simp [hs x hx] at hax
      · refine ⟨.offAir, false, _, State.boundaryMode_offAir (s := s.frameEnded) hp hr hd, nofun,
          by simp [hp], fun y hy => ?_, by simp [hmaint], by simp [hr]⟩
        obtain rfl : r = y := Option.some.inj (hr.symm.trans hy)
        exact ⟨fun hh => absurd (hh.imp_right Schedule.announcing_iff.mpr) hd,
          fun _ _ => ⟨rfl, hon, rfl, rfl, rfl⟩⟩
    | none =>
      cases hm : s.key.maint with
      | some x =>
        obtain ⟨hoff, hresume⟩ := ho.maint x hm
        have hended : s.frameEnded.key.maint = some { x with due := s.dueAt x } := by
          simp [State.frameEnded, hm]
        cases hd : s.dueAt x with
        | false =>
          have hdue : x.due = false := by
            simp only [State.dueAt, Bool.or_eq_false_iff] at hd
            exact hd.1.1
          refine ⟨s.key.mode, false, _, State.boundaryMode_notDue (s := s.frameEnded)
              (x := { x with due := s.dueAt x }) hp hr hended hd, nofun,
            by simp [hp], by simp [hr], fun y hy => ?_, by simp [hm]⟩
          obtain rfl : x = y := Option.some.inj (hm.symm.trans hy)
          refine ⟨fun _ => ⟨hoff, ?_⟩, fun ht => by simp [hd] at ht, fun ht => by simp [hd] at ht⟩
          rw [hd, ← hdue]
        | true =>
          cases hc : s.onAirChecks x.resume with
          | true =>
            refine ⟨x.resume, false, _, State.boundaryMode_resumed (s := s.frameEnded)
              (x := { x with due := s.dueAt x }) hp hr hended hd hc, nofun,
              by simp [hp], by simp [hr], fun y hy => ?_, by simp [hm]⟩
            obtain rfl : x = y := Option.some.inj (hm.symm.trans hy)
            exact ⟨fun hf => by simp [hd] at hf, fun _ _ => ⟨rfl, rfl⟩, fun _ hf => by simp [hc] at hf⟩
          | false =>
            refine ⟨s.key.mode, true, _, State.boundaryMode_resumeFailed (s := s.frameEnded)
              (x := { x with due := s.dueAt x }) hp hr hended hd hc,
              fun _ => rfl, by simp [hp], by simp [hr], fun y hy => ?_, by simp [hm]⟩
            obtain rfl : x = y := Option.some.inj (hm.symm.trans hy)
            refine ⟨fun hf => by simp [hd] at hf, fun _ ht => by simp [hc] at ht, fun _ _ => ⟨hoff, ?_, rfl⟩⟩
            rw [hd]
      | none =>
        exact ⟨s.key.mode, false, _, State.boundaryMode_idle (s := s.frameEnded) hp hr
          (by simp [State.frameEnded, hm]), nofun, by simp [hp], by simp [hr], by simp [hm],
          fun _ _ _ => ⟨rfl, rfl, rfl⟩⟩

/-! ## The whole of the keyer's part -/

/-- What the keyer's part of a boundary leaves, by the mode that it makes, whether a move failed, and what is
held then. -/
structure State.BoundaryLeaves (s t : State) (m : Mode) (failed : Bool) (h : KeyerHeld) : Prop where
  frame : t = { s with tb := t.tb, comp := t.comp, key := t.key, mon := t.mon, cond := t.cond }
  slot : t.comp.next = none
  key : t.key = { s.key.holding h with
    mode := m, windowReport := false, current := t.key.current, history := t.key.history
    gen := if m = .testPattern ∧ s.key.mode ≠ .testPattern then BitVec.allOnes 15 else s.key.gen }
  mon : t.mon = (s.changeMode m).mon
  changed : s.key.mode ≠ m → t.views 17 = (true, true)
  resumeFailed : failed = true → t.views 24 = (true, true)
  quiet : m = s.key.mode → failed = false →
    (m = .timeCode → ∃ r, s.comp.next = some r ∧ s.RecordNow r) → t.cond = s.cond
  inTimeCode : m = .timeCode → t.key.history = s.key.endedHistory ∧
    (∀ r, s.comp.next = some r → s.RecordNow r →
      t.key.current = some { record := r, edgeAt := s.now, edgeDay := s.tb.day, edgeSec := s.tb.sec } ∧
      t.comp = { s.comp.taken r with next := none } ∧ t.cond.live = s.cond.live ∧ t.views 20 = s.views 20) ∧
    ((∀ r, s.comp.next = some r → ¬s.RecordNow r) →
      t.key.current = none ∧ t.comp = { s.comp with next := none } ∧ t.views 20 = (true, true) ∧
      t.cond.live = (s.count .blankMinutes 1).cond.live)
  outside : m ≠ .timeCode → t.key.current = none ∧ t.key.history = [] ∧
    t.comp = { s.comp with next := none } ∧ t.cond.live = s.cond.live ∧ t.views 20 = s.views 20

/-- An ended frame stays in the history of TIME_CODE only. -/
theorem Keyer.Ordered.endedHistory {k : Keyer} (h : k.Ordered) (hm : k.mode ≠ .timeCode) :
    k.endedHistory = [] := by
  have hcurrent : k.current = none := by
    by_contra hc
    exact hm (h.current (Option.isSome_iff_ne_none.mpr hc))
  rw [Keyer.endedHistory, hcurrent]
  by_contra hc
  exact hm (h.history hc)

theorem State.keyerBoundary_leaves {s : State} (ho : s.key.Ordered) {m : Mode} {failed : Bool} {h : KeyerHeld}
    (hmade : s.frameEnded.boundaryMode = s.frameEnded.boundaryMade m failed h) :
    s.BoundaryLeaves s.keyerBoundary m failed h := by
  have hkey := State.boundaryMade_key (s := s.frameEnded) (m := m) (failed := failed) (h := h) rfl
    (fun hm => ho.endedHistory hm)
  obtain ⟨hframe, htb⟩ := s.frameEnded.boundaryMade_frame m failed h
  obtain ⟨h17, h24, h20⟩ := State.boundaryMade_views (s := s.frameEnded) (m := m) (failed := failed) (h := h)
  have hlive := State.boundaryMade_live (s := s.frameEnded) (m := m) (failed := failed) (h := h)
  have hmon := State.boundaryMade_mon (s := s.frameEnded) (m := m) (failed := failed) (h := h)
  have hquiet (hs : m = s.key.mode) (hf : failed = false) :
      (s.frameEnded.boundaryMade m failed h).cond = s.cond := by
    subst hs hf
    have hstays : s.frameEnded.boundaryMade s.key.mode false h = _ := s.frameEnded.boundaryMade_stays false h
    rw [hstays]
    rfl
  have hboundary := s.keyerBoundary_eq
  rw [hmade] at hboundary
  generalize s.frameEnded.boundaryMade m failed h = x at *
  obtain ⟨hwkey, hslot, hwframe, hwviews⟩ := x.takeFrame_keeps
  have hmode : x.key.mode = m := by rw [hkey]
  have hcurrent : x.key.current = none := by rw [hkey]; rfl
  have hcomp : x.comp = s.comp := by rw [hframe]; rfl
  have hnow : x.now = s.now := by rw [hframe]; rfl
  simp only [Prod.mk.injEq] at htb
  obtain ⟨hset, hday, hsec⟩ := htb
  have hset : x.tb.timeSet = s.tb.timeSet := hset
  have hday : x.tb.day = s.tb.day := hday
  have hsec : x.tb.sec = s.tb.sec := hsec
  have hrecord (r : FrameRecord) : x.RecordNow r ↔ s.RecordNow r := by
    unfold State.RecordNow
    rw [hset, hday, hsec]
  have htkey : s.keyerBoundary.key = { x.key with
      current := x.takeFrame.key.current, windowReport := false } := by rw [hboundary, hwkey]
  have htcomp : s.keyerBoundary.comp = x.takeFrame.comp := by rw [hboundary]
  have htcond : s.keyerBoundary.cond = x.takeFrame.cond := by rw [hboundary]
  have htviews (i : Nat) : s.keyerBoundary.views i = x.takeFrame.views i := State.views_congr htcond i
  have htcurrent : s.keyerBoundary.key.current = x.takeFrame.key.current := by rw [htkey]
  have hthistory : s.keyerBoundary.key.history = x.key.history := by rw [htkey]
  have hxhistory : x.key.history = if m = s.key.mode then s.key.endedHistory else [] := by rw [hkey]; rfl
  have hkept : s.frameEnded = { s with key := s.frameEnded.key } := rfl
  refine ⟨?_, ?_, ?_, ?_, fun hm => ?_, fun hf => ?_, fun hm hf hn => ?_, fun hm => ?_, fun hm => ?_⟩
  · rw [hboundary, hwframe, hframe, hkept]
  · rw [htcomp, hslot]
  · rw [htcurrent, hthistory, htkey, hkey]
    rfl
  · rw [hboundary, hwframe, hmon]
    by_cases hs : s.key.mode = m
    · rw [State.changeMode_same hs, State.changeMode_same (s := s.frameEnded) hs]
      rfl
    · rw [State.changeMode_mon hs, State.changeMode_mon (s := s.frameEnded) hs]
      rfl
  · rw [htviews, hwviews 17 (by decide), h17 hm]
  · rw [htviews, hwviews 24 (by decide), h24 hf]
  · rw [htcond, ← hquiet hm hf]
    by_cases ht : m = .timeCode
    · obtain ⟨r, hr, hrec⟩ := hn ht
      exact ((State.takeFrame_takes (hmode.trans ht)).taken r (hcomp ▸ hr) ((hrecord r).mpr hrec)).2.2
    · rw [State.takeFrame_other (by rwa [hmode])]
  · have hw := State.takeFrame_takes (hmode.trans hm)
    refine ⟨?_, fun r hr hrec => ?_, fun hn => ?_⟩
    · rw [hthistory, hxhistory]
      split
      · rfl
      case isFalse hs => exact (ho.endedHistory fun he => hs (hm.trans he.symm)).symm
    · obtain ⟨htaken, htakenComp, htakenCond⟩ := hw.taken r (hcomp ▸ hr) ((hrecord r).mpr hrec)
      refine ⟨?_, ?_, ?_, ?_⟩
      · rw [htcurrent, htaken, hnow, hday, hsec]
      · rw [htcomp, htakenComp, hcomp]
      · rw [htcond, htakenCond, hlive]
        rfl
      · rw [htviews, State.views_congr htakenCond 20, h20]
        rfl
    · obtain ⟨hblankCurrent, hblankComp, hblankViews, hblankLive⟩ :=
        hw.blank fun r hr hrec => hn r (hcomp ▸ hr) ((hrecord r).mp hrec)
      refine ⟨?_, ?_, ?_, ?_⟩
      · rw [htcurrent, hblankCurrent, hcurrent]
      · rw [htcomp, hblankComp, hcomp]
      · rw [htviews, hblankViews]
      · rw [htcond, hblankLive]
        simp only [State.count, hlive]
        rfl
  · have hother := State.takeFrame_other (s := x) (by rw [hmode]; exact hm)
    refine ⟨?_, ?_, ?_, ?_, ?_⟩
    · rw [htcurrent, hother, hcurrent]
    · rw [hthistory, hxhistory]
      split
      case isTrue hs => exact ho.endedHistory (hs ▸ hm)
      · rfl
    · rw [htcomp, hother, hcomp]
    · rw [htcond, hother, hlive]
      rfl
    · rw [htviews, State.views_congr (congrArg State.cond hother) 20]
      exact h20

/-! ## The second edge that is a minute boundary (log 6) -/

theorem State.edgeFinished_minute {s : State} (h : s.tb.atBoundary = true) :
    s.edgeFinished = s.minuteBoundary.beginSignal true := by
  have hcomp : (s.minuteBoundary.beginSignal true).tb.atComposition = false := by
    have hsame : (s.minuteBoundary.beginSignal true).tb.atBoundary = s.tb.atBoundary := by
      simp [Timebase.atBoundary, State.minuteBoundary]
    rw [h] at hsame
    unfold Timebase.atBoundary at hsame
    unfold Timebase.atComposition
    split at hsame <;> simp_all
  simp only [State.edgeFinished, h, if_true, hcomp, Bool.false_eq_true, if_false]

theorem markOf_getD (o : Option Symbol) (now : Nat) : (o.map (markOf now)).getD [] =
    match o with
      | none => []
      | some m => markOf now m := by
  cases o <;> rfl

theorem Timebase.atBoundary_of {t : Timebase}
    (h : if t.timeSet then secondOfMinute t.sec = 0 else t.freeSec = 0) : t.atBoundary = true := by
  unfold Timebase.atBoundary
  split <;> simp_all

/-- The symbol of the first second of a minute. -/
theorem Keyer.symbol_first (k : Keyer) : { k with secIdx := 0 }.symbol =
    match k.mode with
      | .offAir => none
      | .carrierOnly => none
      | .timeCode => k.current.bind fun f => f.record.syms[0]?
      | .testPattern => some (if k.gen.getLsbD 14 then .one else .zero) := by
  simp only [Keyer.symbol]
  cases k.mode <;> rfl

end Sys2Proof.Machine

namespace Sys2Proof

open Sys2Proof.Machine

/-- Settles O39: the keyer's part by what it holds, and the edge that makes it. -/
theorem boundaryActsOnWhatIsHeld : Obligations.BoundaryActsOnWhatIsHeld := by
  refine ⟨fun s ho => ?held, fun s hp hw => ?edge⟩
  case held =>
    obtain ⟨m, failed, h, hmade, hacts⟩ := State.frameEnded_acts ho
    have hl := State.keyerBoundary_leaves ho hmade
    intro t raised forNow noBlank
    have hmode : t.key.mode = m := by rw [hl.key]
    have hpending : t.key.pendingMode = h.pendingMode := by rw [hl.key]; rfl
    have hoff : t.key.offReq = h.offReq := by rw [hl.key]; rfl
    have hmaint : t.key.maint = h.maint := by rw [hl.key]; rfl
    have hdeferred : t.key.deferred = h.deferred := by rw [hl.key]; rfl
    have hchanged (hne : s.key.mode ≠ m) : raised 17 := State.views_of_raised (hl.changed hne)
    have hfailed (hf : failed = true) : raised 24 := State.views_of_raised (hl.resumeFailed hf)
    rw [hmode, hpending, hoff, hmaint, hdeferred]
    refine ⟨by rw [hl.key], hl.slot, hl.frame, ?_, ?_, fun hne => hchanged (Ne.symm hne), fun x hx => ?_,
      fun r hr => ?_, fun x hx => ?_, fun hp hr hx => ?_, fun hm => ?_, fun hm => ?_⟩
    · rw [← hpending, ← hoff, ← hmaint, ← hdeferred]
      refine hl.key.trans ?_
      rw [hpending, hoff, hmaint, hdeferred]
      rfl
    · rw [hl.mon]
      split
      case isTrue he => rw [State.changeMode_same he.symm]
      · rfl
    · obtain ⟨hnone, hok, hno⟩ := hacts.pending x hx
      refine ⟨hnone, fun hc => ?_, fun hc => ?_⟩
      · exact ⟨(hok hc).1, hchanged (hok hc).2⟩
      · exact ⟨(hno hc).1, hfailed (hno hc).2⟩
    · obtain ⟨hdefer, hcarry⟩ := hacts.offReq r hr
      refine ⟨hdefer, fun hh hs => ?_⟩
      obtain ⟨hm, hne, hreq, hdef, hrec⟩ := hcarry hh hs
      exact ⟨hm, hreq, hdef, hrec, hchanged hne⟩
    · intro due
      have hdue : due ↔ s.dueAt x = true := by
        have hend : due ↔ x.due = true ∨ s.key.windowReport = true ∨
            (s.tb.timeSet = true ∧ linearMinute x.endDay x.endMinute ≤ s.tb.minute) := Iff.rfl
        rw [hend]
        simp [State.dueAt, or_assoc]
      obtain ⟨hstays, hresumes, hfails⟩ := hacts.maint x hx
      refine ⟨fun hn => hstays ?_, fun hd => hresumes (hdue.mp hd), fun hd hc => ?_⟩
      · exact Bool.eq_false_iff.mpr (mt hdue.mpr hn)
      · obtain ⟨hm, hrec, hf⟩ := hfails (hdue.mp hd) hc
        exact ⟨hm, hrec, hfailed hf⟩
    · obtain ⟨hm, hnone, hf⟩ := hacts.idle hp hr hx
      exact ⟨hm, hnone, fun hn => hl.quiet hm hf (hm ▸ hn)⟩
    · obtain ⟨hhistory, htaken, hblank⟩ := hl.inTimeCode hm
      rw [hhistory]
      refine ⟨fun f hf => by rw [Keyer.endedHistory, hf], fun hf => by rw [Keyer.endedHistory, hf],
        fun r hr hn => ?_, fun hn => ?_⟩
      · obtain ⟨hcurrent, hcomp, hlive, hviews⟩ := htaken r hr hn
        exact ⟨hcurrent, hcomp, hlive, hviews⟩
      · obtain ⟨hcurrent, hcomp, hviews, hlive⟩ := hblank hn
        refine ⟨hcurrent, hcomp, State.views_of_raised hviews, hlive, ?_⟩
        rw [hlive]
        exact s.count_live .blankMinutes 1
    · obtain ⟨hcurrent, hhistory, hcomp, hlive, hviews⟩ := hl.outside hm
      exact ⟨hcurrent, hhistory, hcomp, hlive, hviews⟩
  case edge =>
    have hxnow : s.edgeBegun.now = max s.now s.tb.due := by simp [State.edgeBegun_eq, State.waitUntil]
    have hxmon : s.edgeBegun.mon = s.mon.atEdge ⟨max s.now s.tb.due,
        (s.tb.edge .counted (max s.now s.tb.due)).day, (s.tb.edge .counted (max s.now s.tb.due)).sec⟩ := by
      simp [State.edgeBegun, State.markBegun, State.beginEdge, State.waitUntil]
    have hxframe : s.edgeBegun = { s with
        now := max s.now s.tb.due, tb := s.edgeBegun.tb, ref1 := s.edgeBegun.ref1, ref2 := s.edgeBegun.ref2
        sel := s.edgeBegun.sel, key := s.edgeBegun.key, cond := s.edgeBegun.cond, mon := s.edgeBegun.mon } := by
      apply State.ext <;> simp [State.edgeBegun_eq, State.waitUntil]
    obtain ⟨htnow, -⟩ := s.secondEdge_frame
    obtain ⟨htset, htday, htsec, -, htfree, -⟩ := s.secondEdge_tb
    refine ⟨_, State.exec_secondEdge hp hw, ?_, ?_, fun hbound => ?_⟩
    · rw [htnow, htday, htsec, ← hxmon]
      exact State.edgeBegun_key s ▸ hxframe
    · rw [htset, htday, htsec, htfree]
      simp [State.edgeBegun_eq, State.waitUntil]
    · have hxbound : s.edgeBegun.tb.atBoundary = true := by
        rw [← (s.edgeBegun.edgeFinished_ticks s.params.tickPeriod).1]
        exact Timebase.atBoundary_of hbound
      have hfinished := State.edgeFinished_minute hxbound
      have hkey : s.edgeBegun.edgeFinished.settle.key = (s.edgeBegun.minuteBoundary.beginSignal true).key :=
        congrArg (fun x : State => x.settle.key) hfinished
      have hynow : s.edgeBegun.minuteBoundary.now = max s.now s.tb.due := by
        simp [State.minuteBoundary, hxnow]
      have hykey : s.edgeBegun.minuteBoundary.key = s.edgeBegun.keyerBoundary.key := by simp [State.minuteBoundary]
      intro y first
      have hgrows : y.cond.Grows s.edgeBegun.edgeFinished.cond := by
        rw [hfinished]
        exact State.minuteTick_grows (Conditions.Grows.refl _)
      refine ⟨?_, ?_, fun i hi => ?_, fun i hi => ?_⟩
      · rw [hkey, htnow]
        unfold State.beginSignal
        rw [hynow, hykey]
        have hmark : ({ y.key with secIdx := 0 }.symbol.map (markOf (max s.now s.tb.due))).getD [] = _ :=
          (congrArg (fun o : Option Symbol => (o.map (markOf (max s.now s.tb.due))).getD [])
            (Keyer.symbol_first y.key)).trans (markOf_getD first _)
        exact congrArg (fun l => { y.key with
          secIdx := 0, mark := l
          gen := if y.key.mode = Mode.testPattern then genStep y.key.gen else y.key.gen }) hmark
      · have hleft : (s.edgeBegun.edgeFinished.comp, s.edgeBegun.edgeFinished.mon, s.edgeBegun.edgeFinished.sched) =
            (y.comp, y.mon, s.sched) := by
          rw [hfinished]
          simp [State.minuteBoundary, y, State.edgeBegun_eq, State.waitUntil]
        exact hleft
      · exact State.settle_views_grow _ .a i (hgrows.views .a i hi)
      · exact State.settle_views_grow _ .b i (hgrows.views .b i hi)

end Sys2Proof

/-! The judgement of a pulse, and the leap warning check (R47, R48, R49, R59). -/

namespace Sys2Proof.Machine

/-! ## The runs (R48, R49) -/

/-- The pulse makes a good second. -/
def OpenPulse.Good (u : OpenPulse) (bad : Bool) : Prop :=
  u.interval = .regular ∧ u.label.isSome = true ∧ bad = false

/-- The irregular run after the pulse. -/
def RefPort.irregAfter (r : RefPort) (u : OpenPulse) : Nat :=
  match u.interval with
  | .none => r.irregRun
  | .regular => 0
  | .irregular => r.irregRun + 1

/-- The unlabelled run after the pulse. -/
def RefPort.unlabAfter (r : RefPort) (u : OpenPulse) : Nat := if u.label = none then r.unlabRun + 1 else 0

/-- The pulse takes a QUALIFIED port to CANDIDATE. -/
def RefPort.Lost (r : RefPort) (q : Params) (u : OpenPulse) (bad : Bool) : Prop :=
  bad = true ∨ (u.interval = .irregular ∧ q.disqCount ≤ r.irregAfter u) ∨ 3 ≤ r.unlabAfter u

section

variable {r : RefPort} {q : Params} {u : OpenPulse} {bad : Bool}

theorem RefPort.judge_ended (hr : r.st = .candidate) (h : ¬u.Good bad) :
    r.judge q u bad = { r with goodRun := 0 } := by
  simp only [RefPort.judge, hr]
  exact if_neg (by simpa [OpenPulse.Good, and_assoc] using h)

theorem RefPort.judge_grows (hr : r.st = .candidate) (h : u.Good bad) (hn : r.goodRun + 1 < q.qualCount) :
    r.judge q u bad = { r with goodRun := r.goodRun + 1 } := by
  simp only [RefPort.judge, hr]
  refine (if_pos (by simpa [OpenPulse.Good, and_assoc] using h)).trans (if_neg (by omega))

theorem RefPort.judge_qualifies (hr : r.st = .candidate) (h : u.Good bad) (hn : q.qualCount ≤ r.goodRun + 1) :
    r.judge q u bad = r.moveTo .qualified := by
  simp only [RefPort.judge, hr]
  exact (if_pos (by simpa [OpenPulse.Good, and_assoc] using h)).trans (if_pos hn)

theorem RefPort.judge_qualified (hr : r.st = .qualified) : r.judge q u bad =
    if bad || (u.interval = .irregular && q.disqCount ≤ r.irregAfter u) || 3 ≤ r.unlabAfter u then
      r.moveTo .candidate
    else { r with irregRun := r.irregAfter u, unlabRun := r.unlabAfter u } := by
  simp only [RefPort.judge, hr, RefPort.irregAfter, RefPort.unlabAfter]
  obtain ⟨at_, interval, label⟩ := u
  cases interval <;> cases label <;> rfl

theorem RefPort.judge_lost (hr : r.st = .qualified) (h : r.Lost q u bad) :
    r.judge q u bad = r.moveTo .candidate := by
  rw [RefPort.judge_qualified hr]
  exact if_pos (by simpa [RefPort.Lost, or_assoc] using h)

theorem RefPort.judge_kept (hr : r.st = .qualified) (h : ¬r.Lost q u bad) :
    r.judge q u bad = { r with irregRun := r.irregAfter u, unlabRun := r.unlabAfter u } := by
  rw [RefPort.judge_qualified hr]
  exact if_neg (by simpa [RefPort.Lost, or_assoc] using h)

end

/-- A label differs from the second begun by the pulse's edge. -/
theorem State.mismatch_iff {s : State} {label : Option Label} : s.mismatch label = false ↔
    (s.tb.timeSet = true → ∀ x, label = some x → (x.day, x.sec) = (s.tb.day, s.tb.sec)) := by
  cases label with
  | none => simp [State.mismatch]
  | some x => cases ht : s.tb.timeSet <;> simp [State.mismatch, ht]

/-! ## The leap warning check (R59) -/

/-- The leap entries that bear on the month of day `d`. -/
def Entry.LeapsAfter (x : Entry) (d : Nat) : Prop := x.kind ≠ .zoneChange ∧ x.eDay = lastOfMonth d + 1

theorem State.scheduledLeap_none {s : State} (h : ∀ x ∈ s.sched.entries, ¬x.LeapsAfter s.tb.day) :
    s.scheduledLeap = .none := by
  have hfind : s.sched.entries.find? (fun x => x.isLeap && x.eDay = lastOfMonth s.tb.day + 1) = none :=
    List.find?_eq_none.mpr fun x hx => by simpa [Entry.isLeap, Entry.LeapsAfter] using h x hx
  rw [State.scheduledLeap, hfind]

theorem State.scheduledLeap_first {s : State} {before after : List Entry} {x : Entry}
    (he : s.sched.entries = before ++ x :: after) (hx : x.LeapsAfter s.tb.day)
    (hb : ∀ y ∈ before, ¬y.LeapsAfter s.tb.day) :
    s.scheduledLeap = if x.kind = .leapInsert then .insert else .delete := by
  have hfind : s.sched.entries.find? (fun x => x.isLeap && x.eDay = lastOfMonth s.tb.day + 1) = some x := by
    refine List.find?_eq_some_iff_append.mpr ⟨?_, before, after, he, fun y hy => ?_⟩
    · simpa [Entry.isLeap, Entry.LeapsAfter] using hx
    · simpa [Entry.isLeap, Entry.LeapsAfter, or_iff_not_imp_left] using hb y hy
  rw [State.scheduledLeap, hfind]

/-- The port is QUALIFIED and its last warning differs from the schedule's leap for the month. -/
def State.OffLeap (s : State) (p : Port) : Prop :=
  (s.port p).st = .qualified ∧ ∃ x, (s.port p).last = some x ∧ x.leap ≠ s.scheduledLeap

theorem State.leapDisagrees_iff {s : State} {p : Port}
    (h : (s.port p).st = .qualified → (s.port p).last.isSome = true) :
    s.leapDisagrees p = true ↔ s.OffLeap p := by
  unfold State.leapDisagrees State.OffLeap State.qualified
  rw [Bool.and_eq_true, decide_eq_true_eq]
  refine and_congr_right fun hq => ?_
  obtain ⟨x, hx⟩ := Option.isSome_iff_exists.mp (h hq)
  simp [hx]

theorem State.leapCheck_leapDis (s : State) (p : Port) : (s.leapCheck.port p).leapDis = s.leapDisagrees p := by
  cases p <;> rfl

/-- LEAP_DISAGREE is raised exactly if a port begins to disagree. -/
theorem State.leapCheck_cond (s : State) :
    ((∃ p, s.leapDisagrees p = true ∧ (s.port p).leapDis = false) → s.leapCheck.views 14 = (true, true)) ∧
      ((∀ p, s.leapDisagrees p = true → (s.port p).leapDis = true) → s.leapCheck.cond = s.cond) := by
  have hcond : s.leapCheck.cond = (s.raiseIf ((s.leapDisagrees .p1 && !s.ref1.leapDis) ||
      (s.leapDisagrees .p2 && !s.ref2.leapDis)) .leapDisagree).cond := rfl
  refine ⟨fun ⟨p, hd, hl⟩ => ?_, fun h => ?_⟩
  · rw [State.views_congr hcond 14]
    refine (s.raiseIf_views_self _ .leapDisagree).trans (if_pos ?_)
    cases p
    · have hl : s.ref1.leapDis = false := hl
      simp [hd, hl]
    · have hl : s.ref2.leapDis = false := hl
      simp [hd, hl]
  · have h1 : s.leapDisagrees .p1 = true → s.ref1.leapDis = true := h .p1
    have h2 : s.leapDisagrees .p2 = true → s.ref2.leapDis = true := h .p2
    have hnone : ((s.leapDisagrees .p1 && !s.ref1.leapDis) || (s.leapDisagrees .p2 && !s.ref2.leapDis)) = false := by
      cases hd1 : s.leapDisagrees .p1 <;> cases hd2 : s.leapDisagrees .p2 <;> simp_all
    rw [hcond, hnone]
    rfl

end Sys2Proof.Machine

/-! What stands of the selection's consequences when the event that made them ends (R30, R33, R34, R54). -/

namespace Sys2Proof.Machine

/-! ## What the consequences of a port's move are read from, and where they stand -/

/-- What the consequences of port `p`'s move are read from, before it. -/
def State.sightOf (s : State) (p : Port) :=
  ((s.sel.selection, s.sel.mode, s.views 15), (s.tb.disc, s.params.slew, s.key.nearTimeCode),
    ((s.port p.other).st, (s.port p.other).lastOffset))

/-- What the selection has made of `t` stands in `t'` too, but for a waiting phase step, which an entry to
TIME_CODE abandons. -/
structure State.Upholds (t t' : State) : Prop where
  sel : t'.sel.selection = t.sel.selection
  view : t'.views 15 = t.views 15
  time : (t'.tb.timeSet, t'.tb.disc, t'.tb.trimValid, t'.tb.holdAge, t'.tb.acq) =
    (t.tb.timeSet, t.tb.disc, t.tb.trimValid, t.tb.holdAge, t.tb.acq)
  window : (t'.tb.winCount, t'.tb.winSum) = (t.tb.winCount, t.tb.winSum)
  step : t'.tb.stepWaiting = true ↔
    t.tb.stepWaiting = true ∧ (t.key.mode ≠ .timeCode → t'.key.mode ≠ .timeCode)

/-- The second begun stands in `t'` as well. -/
structure State.Outlives (t t' : State) : Prop extends t.Upholds t' where
  second : (t'.tb.length, t'.tb.corr, t'.tb.slewing) = (t.tb.length, t.tb.corr, t.tb.slewing)

theorem State.Outlives.of_eq {t t' : State} (htb : t'.tb = t.tb) (hsel : t'.sel.selection = t.sel.selection)
    (hview : t'.views 15 = t.views 15) (hmode : t'.key.mode = t.key.mode) : t.Outlives t' where
  sel := hsel
  view := hview
  time := by rw [htb]
  window := by rw [htb]
  second := by rw [htb]
  step := by simp [htb, hmode]

section

variable {s s' t t' : State} {p : Port}

theorem State.SelectionKept.seen (h : s.SelectionKept t) (hs : s'.sightOf p = s.sightOf p) : s'.SelectionKept t := by
  simp only [State.sightOf, Prod.mk.injEq] at hs
  exact ⟨h.1.trans hs.1.1.symm, (show t.views 15 = s.views 15 from h.2).trans hs.1.2.2.symm⟩

theorem State.SelectionKept.upheld (h : s.SelectionKept t) (ht : t.Upholds t') : s.SelectionKept t' :=
  ⟨ht.sel.trans h.1, ht.view.trans h.2⟩

theorem State.Switched.upheld (h : t.Switched) (ht : t.Upholds t') : t'.Switched :=
  State.views_of_raised (ht.view.trans (Prod.ext h.1 h.2))

theorem State.Unsteered.upheld (h : s.Unsteered t) (ht : t.Upholds t') : s.Unsteered t' := by
  have htime := ht.time
  simp only [Prod.mk.injEq] at htime
  obtain ⟨hset, hdisc, hvalid, hage, hacq⟩ := htime
  unfold State.Unsteered at h ⊢
  rw [hset, hdisc, hvalid, hage, hacq]
  refine ⟨fun hs => ⟨fun hl => ?_, (h.1 hs).2⟩, h.2⟩
  obtain ⟨hd, ha, hw⟩ := (h.1 hs).1 hl
  exact ⟨hd, ha, Bool.eq_false_iff.mpr fun hf => Bool.eq_false_iff.mp hw (ht.step.mp hf).1⟩

theorem State.Unsteered.seen (h : s.Unsteered t) (hs : s'.sightOf p = s.sightOf p) : s'.Unsteered t := by
  simp only [State.sightOf, Prod.mk.injEq] at hs
  unfold State.Unsteered at h ⊢
  rw [hs.2.1.1]
  exact h

theorem State.LosesPort.seen (h : s.LosesPort t p) (hs : s'.sightOf p = s.sightOf p) : s'.LosesPort t p := by
  have hkept (x : State) (hx : s.SelectionKept x) : s'.SelectionKept x := hx.seen hs
  have hunsteered (x : State) (hx : s.Unsteered x) : s'.Unsteered x := hx.seen hs
  obtain ⟨hother, hmanual, hauto⟩ := h
  simp only [State.sightOf, Prod.mk.injEq] at hs
  obtain ⟨⟨hsel, hmode, -⟩, ⟨-, hslew, hnear⟩, hst, hoffset⟩ := hs
  unfold State.LosesPort
  rw [hsel, hmode, hslew, hnear, hst, hoffset]
  refine ⟨fun hne => hkept _ (hother hne), fun he hm => (hmanual he hm).imp (hkept _) (hunsteered _), fun he hm => ?_⟩
  obtain ⟨hswitched, hto, hnone⟩ := hauto he hm
  exact ⟨hswitched, hto, fun hq => (hnone hq).imp_right (hunsteered _)⟩

theorem State.LosesPort.upheld (h : s.LosesPort t p) (hk : s.key.nearTimeCode = false → t.key.mode ≠ .timeCode)
    (ht : t.Upholds t') : s.LosesPort t' p := by
  obtain ⟨hother, hmanual, hauto⟩ := h
  have htime := ht.time
  simp only [Prod.mk.injEq] at htime
  obtain ⟨hset, hdisc, -, -, hacq⟩ := htime
  refine ⟨fun hne => (hother hne).upheld ht,
    fun he hm => (hmanual he hm).imp (·.upheld ht) (·.upheld ht), fun he hm => ?_⟩
  obtain ⟨hswitched, hto, hnone⟩ := hauto he hm
  refine ⟨hswitched.upheld ht, fun hq => ?_, fun hq => ?_⟩
  · obtain ⟨hsel, hon, hoff⟩ := hto hq
    rw [ht.sel, hset, hdisc, hacq, ht.window, ht.step]
    refine ⟨hsel, fun hs => ?_, hoff⟩
    obtain ⟨hlocked, hwindow, hstep⟩ := hon hs
    refine ⟨hlocked, hwindow, ?_⟩
    rw [hstep]
    constructor
    · rintro ⟨⟨hslew, hnear, hmode⟩, hlater⟩
      exact ⟨hslew, hnear, hlater hmode⟩
    · rintro ⟨hslew, hnear, hmode⟩
      exact ⟨⟨hslew, hnear, hk hnear⟩, fun _ => hmode⟩
  · exact ⟨ht.sel.trans (hnone hq).1, (hnone hq).2.upheld ht⟩

theorem State.GainsPort.seen {o length corr : Int} (h : s.GainsPort t p o length corr)
    (hs : s'.sightOf p = s.sightOf p) : s'.GainsPort t p o length corr := by
  have hkept (x : State) (hx : s.SelectionKept x) : s'.SelectionKept x := hx.seen hs
  obtain ⟨hchosen, hnot, hlocks⟩ := h
  simp only [State.sightOf, Prod.mk.injEq] at hs
  obtain ⟨⟨hsel, hmode, -⟩, ⟨hdisc, hslew, hnear⟩, -⟩ := hs
  unfold State.GainsPort
  rw [hsel, hmode, hslew, hnear, hdisc]
  exact ⟨hchosen, fun hc => hkept _ (hnot hc), hlocks⟩

theorem State.GainsPort.outlived {o length corr : Int} (h : s.GainsPort t p o length corr)
    (hk : s.key.nearTimeCode = false → t.key.mode ≠ .timeCode) (ht : t.Outlives t') :
    s.GainsPort t' p o length corr := by
  obtain ⟨hchosen, hnot, hlocks⟩ := h
  have htime := ht.time
  have hsecond := ht.second
  simp only [Prod.mk.injEq] at htime hsecond
  obtain ⟨hset, hdisc, -, -, hacq⟩ := htime
  obtain ⟨hlength, hcorr, hslewing⟩ := hsecond
  have hno (hw : t.tb.stepWaiting = false) : t'.tb.stepWaiting = false :=
    Bool.eq_false_iff.mpr fun hf => Bool.eq_false_iff.mp hw (ht.step.mp hf).1
  unfold State.GainsPort
  rw [ht.sel, hset, hdisc, hacq, ht.window, ht.step, hlength, hcorr, hslewing]
  refine ⟨fun hc => ⟨(hchosen hc).1, (hchosen hc).2.upheld ht.toUpholds⟩, fun hc => (hnot hc).upheld ht.toUpholds, fun hp => ?_⟩
  obtain ⟨hunset, hon⟩ := hlocks hp
  refine ⟨hunset, fun hs => ⟨(hon hs).1, fun he => ?_⟩⟩
  obtain ⟨hwindow, hsmall, hslews, hsteps⟩ := (hon hs).2 he
  refine ⟨hwindow, fun ho => ?_, fun ho hn => ?_, fun ho hn => ⟨(hsteps ho hn).1, ?_⟩⟩
  · have hstands := hsmall ho
    simp only [Prod.mk.injEq] at hstands ⊢
    exact ⟨hstands.1, hstands.2.1, hno hstands.2.2⟩
  · have hstands := hslews ho hn
    simp only [Prod.mk.injEq] at hstands ⊢
    exact ⟨hstands.1, hstands.2.1, hstands.2.2.1, hno hstands.2.2.2⟩
  · have hmode := hk hn
    rw [(hsteps ho hn).2]
    exact ⟨fun h => h.2 hmode, fun h => ⟨hmode, fun _ => h⟩⟩

end

/-! ## The rest of an edge (R127, R90) -/

theorem State.minuteTick_views_switch (s : State) : s.minuteTick.views 15 = s.views 15 := by
  have htick : s.tick.views 15 = s.views 15 :=
    (State.raise_views_other _ .tick (by decide)).trans (State.raiseIf_views_other _ _ .threshold (by decide))
  simp only [State.minuteTick]
  split
  · split
    · exact htick
    · rfl
  · split
    · exact htick
    · rfl

/-- Whatever is held, the boundary acts on it by a mode and by what is held then. -/
theorem State.boundaryMode_made (s : State) : ∃ m failed h, s.boundaryMode = s.boundaryMade m failed h := by
  cases hp : s.key.pendingMode with
  | some m =>
    cases hc : s.onAirChecks m with
    | true => exact ⟨_, _, _, State.boundaryMode_pending_ok hp hc⟩
    | false => exact ⟨_, _, _, State.boundaryMode_pending_failed hp hc⟩
  | none =>
    cases hr : s.key.offReq with
    | some r =>
      by_cases hd : s.key.hold = true ∨ s.sched.announcing = true
      · exact ⟨_, _, _, State.boundaryMode_deferred hp hr hd⟩
      · exact ⟨_, _, _, State.boundaryMode_offAir hp hr hd⟩
    | none =>
      cases hm : s.key.maint with
      | none => exact ⟨_, _, _, State.boundaryMode_idle hp hr hm⟩
      | some x =>
        cases hd : x.due with
        | false => exact ⟨_, _, _, State.boundaryMode_notDue hp hr hm hd⟩
        | true =>
          cases hc : s.onAirChecks x.resume with
          | true => exact ⟨_, _, _, State.boundaryMode_resumed hp hr hm hd hc⟩
          | false => exact ⟨_, _, _, State.boundaryMode_resumeFailed hp hr hm hd hc⟩

theorem State.boundaryMade_switch (s : State) (m : Mode) (failed : Bool) (h : KeyerHeld) :
    (s.boundaryMade m failed h).views 15 = s.views 15 ∧ (s.boundaryMade m failed h).key.mode = m ∧
      ((s.boundaryMade m failed h).tb.stepWaiting = true ↔
        s.tb.stepWaiting = true ∧ (s.key.mode ≠ .timeCode → m ≠ .timeCode)) := by
  have htb : (s.boundaryMade m failed h).tb = (s.changeMode m).tb := by simp [State.boundaryMade]
  have hkey : (s.boundaryMade m failed h).key.mode = (s.changeMode m).key.mode := rfl
  refine ⟨?_, ?_, ?_⟩
  · refine (State.views_congr (s := (s.changeMode m).raiseIf failed .resumeFailed) rfl 15).trans ?_
    rw [State.raiseIf_views_other _ _ _ (by decide), State.changeMode_views_other (by decide)]
  · rw [hkey]
    by_cases hm : s.key.mode = m
    · rw [State.changeMode_same hm, hm]
    · rw [State.changeMode_key hm]
      rfl
  · rw [htb]
    by_cases hm : s.key.mode = m
    · rw [State.changeMode_same hm, hm]
      exact ⟨fun hw => ⟨hw, id⟩, And.left⟩
    · rw [State.changeMode_step hm]
      simp only [Bool.and_eq_true, decide_eq_true_eq]
      refine and_congr_right fun _ => ⟨fun h _ => h, fun h he => ?_⟩
      exact h (fun hc => hm (hc.trans he.symm)) he

/-- The keyer's part of a boundary raises no REF_SWITCH, and abandons a phase step on an entry to TIME_CODE. -/
theorem State.keyerBoundary_switch (s : State) :
    s.keyerBoundary.views 15 = s.views 15 ∧
      (s.keyerBoundary.tb.stepWaiting = true ↔
        s.tb.stepWaiting = true ∧ (s.key.mode ≠ .timeCode → s.keyerBoundary.key.mode ≠ .timeCode)) := by
  obtain ⟨m, failed, h, hmade⟩ := s.frameEnded.boundaryMode_made
  obtain ⟨hview, hmode, hstep⟩ := s.frameEnded.boundaryMade_switch m failed h
  rw [← hmade] at hview hmode hstep
  obtain ⟨hkey, -, hframe, hviews⟩ := s.frameEnded.boundaryMode.takeFrame_keeps
  rw [State.keyerBoundary_eq]
  refine ⟨?_, ?_⟩
  · refine (State.views_congr rfl 15).trans ((hviews 15 (by decide)).trans (hview.trans ?_))
    exact State.views_congr rfl 15
  · have htb : s.frameEnded.boundaryMode.takeFrame.tb = s.frameEnded.boundaryMode.tb := by rw [hframe]
    dsimp only
    rw [htb, hkey]
    dsimp only
    rw [hmode]
    exact hstep

theorem State.composition_views_switch (s : State) : s.composition.views 15 = s.views 15 := by
  have hleap : s.leapCheck.views 15 = s.views 15 :=
    (State.views_congr rfl 15).trans (State.raiseIf_views_other s _ .leapDisagree (by decide))
  have hprocess (x : State) (f : Nat) : (x.processSchedule f).views 15 = x.views 15 := by
    simp only [State.processSchedule]
    split
    · exact State.raise_views_other _ .scheduleChange (by decide)
    · rfl
  rw [State.composition_eq]
  exact (State.views_congr (by simp) 15).trans ((hprocess s.leapCheck (nextMinute s.tb.minute)).trans hleap)

theorem State.composition_step (s : State) :
    s.composition.tb.stepWaiting = s.tb.stepWaiting ∧ s.composition.key.mode = s.key.mode := by
  obtain ⟨b, hb⟩ := s.composition_key
  exact ⟨by simp, by rw [hb]⟩

/-- The boundary's part of an edge, if the edge is one, and the signal of the second begun. -/
def State.signalled (s : State) : State :=
  (if s.tb.atBoundary then s.minuteBoundary else s).beginSignal s.tb.atBoundary

theorem State.edgeFinished_signalled (s : State) : s.edgeFinished =
    if s.signalled.tb.atComposition then s.signalled.composition else s.signalled := rfl

theorem State.signalled_switch (s : State) : s.signalled.views 15 = s.views 15 ∧
    (s.signalled.tb.stepWaiting = true ↔
      s.tb.stepWaiting = true ∧ (s.key.mode ≠ .timeCode → s.signalled.key.mode ≠ .timeCode)) := by
  unfold State.signalled
  cases s.tb.atBoundary with
  | true =>
    obtain ⟨hview, hstep⟩ := s.keyerBoundary_switch
    refine ⟨(s.keyerBoundary.minuteTick_views_switch).trans hview, ?_⟩
    have htb : (s.minuteBoundary.beginSignal true).tb = s.keyerBoundary.tb := by simp [State.minuteBoundary]
    have hmode : (s.minuteBoundary.beginSignal true).key.mode = s.keyerBoundary.key.mode := by
      simp [State.minuteBoundary, State.beginSignal]
    rw [if_pos rfl, htb, hmode]
    exact hstep
  | false => exact ⟨rfl, ⟨fun hw => ⟨hw, id⟩, And.left⟩⟩

theorem State.edgeFinished_switch (s : State) : s.edgeFinished.views 15 = s.views 15 ∧
    (s.edgeFinished.tb.stepWaiting = true ↔
      s.tb.stepWaiting = true ∧ (s.key.mode ≠ .timeCode → s.edgeFinished.key.mode ≠ .timeCode)) := by
  rw [State.edgeFinished_signalled]
  have hsignal := s.signalled_switch
  split
  · obtain ⟨hstep, hmode⟩ := s.signalled.composition_step
    rw [State.composition_views_switch, hstep, hmode]
    exact hsignal
  · exact hsignal

/-- What an edge does after the pulses leaves what the selection has made. -/
theorem State.edgeFinished_outlives (s : State) : s.Outlives s.edgeFinished where
  sel := by simp
  view := s.edgeFinished_switch.1
  time := by simp
  window := by simp
  second := by simp
  step := s.edgeFinished_switch.2

end Sys2Proof.Machine

/-! The evaluation of one pulse, and what the selection and the timebase make of it (R30, R33, R48, R49, R54, R58). -/

namespace Sys2Proof.Machine

/-! ## The evaluation of one pulse -/

/-- `x` is `s` after port `p`, which stands as `r` but for its offsets, has been evaluated on the pulse `u` of
offset `o`. -/
structure State.Evaluates (s x : State) (p : Port) (u : OpenPulse) (o : Int) (r : RefPort) : Prop where
  port : x.port p =
    ({ r with lastOffset := o, edgeOffset := some o } : RefPort).judge s.params u (s.mismatch u.label)
  before : (s.port p).st = r.st
  other : x.port p.other = s.port p.other
  rest : (x.tb, x.sel, x.params, x.key) = (s.tb, s.sel, s.params, s.key)
  switch : x.views 15 = s.views 15

/-- What the selector and the timebase make of an evaluation, and the judgement of agreement. -/
def State.concluded (s x : State) (known : Port → Bool) : State :=
  (s.slewOnEntry (s.portsMoved x) known).judgeAgreement

theorem State.correct_views (s : State) (p : Port) (o : Int) (i : Nat) : (s.correct p o).views i = s.views i := by
  unfold State.correct
  split
  · extract_lets c limited s1
    have hcount : s1.views i = s.views i := by
      simp only [s1]
      split
      · exact s.count_views _ 1 i
      · rfl
    exact hcount
  · rfl

theorem State.slewOnEntry_views (s0 s : State) (known : Port → Bool) (i : Nat) :
    (s0.slewOnEntry s known).views i = s.views i := by
  unfold State.slewOnEntry
  split
  · rfl
  · dsimp only
    split
    · exact s.correct_views _ _ i
    · rfl

theorem State.slewOnEntry_upholds (s0 s : State) (known : Port → Bool) : s.Upholds (s0.slewOnEntry s known) where
  sel := by simp
  view := s0.slewOnEntry_views s known 15
  time := by simp
  window := by simp
  step := by simp

/-- LOCKED entered, or entered again, on a port whose offset became known. -/
theorem State.slewOnEntry_entered {s0 s : State} {p : Port} {known : Port → Bool} (hs : s.sel.selection = some p)
    (hk : known p = true) (he : s0.tb.disc ≠ .locked ∨ s0.sel.selection ≠ some p) :
    s0.slewOnEntry s known =
      if s.params.slew < (s.port p).lastOffset.natAbs then s.correct p (s.port p).lastOffset else s := by
  unfold State.slewOnEntry
  rw [hs]
  simp only [hk, Bool.true_and]
  have hentered : (decide (s0.tb.disc ≠ .locked) || decide (s0.sel.selection ≠ some p)) = true := by
    simpa using he
  simp only [hentered, Bool.true_and, decide_eq_true_eq]

theorem State.judgeAgreement_outlives (s : State) : s.Outlives s.judgeAgreement := by
  have hcond : s.judgeAgreement.cond = s.cond := by simp
  exact State.Outlives.of_eq (by simp) s.judgeAgreement_selection.1 (State.views_congr hcond 15) (by simp)

/-- The difference is judged only with both offsets known and both ports QUALIFIED. -/
theorem State.judgeAgreement_idle {s : State} {p : Port}
    (h : (s.port p).st ≠ .qualified ∨ (s.port p).edgeOffset = none) : s.judgeAgreement = s := by
  unfold State.judgeAgreement
  split
  case h_1 o1 o2 h1 h2 =>
    refine if_neg fun hq => ?_
    simp only [Bool.and_eq_true, State.qualified, decide_eq_true_eq] at hq
    rcases h with hs | he
    · cases p
      · exact hs hq.1
      · exact hs hq.2
    · cases p
      · exact Option.some_ne_none o1 (h1.symm.trans he)
      · exact Option.some_ne_none o2 (h2.symm.trans he)
  case h_2 => rfl

theorem State.judgeAgreement_sel {s : State} {p : Port} {o o' : Int} (hq : (s.port p).st = .qualified)
    (hq' : (s.port p.other).st = .qualified) (ho : (s.port p).edgeOffset = some o)
    (ho' : (s.port p.other).edgeOffset = some o') : s.judgeAgreement.sel = { s.sel with
      diff := some (o - o').natAbs, disagree := decide (s.params.refAgree < (o - o').natAbs) } := by
  have hjudged {o1 o2 : Int} (h1 : s.ref1.edgeOffset = some o1) (h2 : s.ref2.edgeOffset = some o2)
      (hq1 : s.ref1.st = .qualified) (hq2 : s.ref2.st = .qualified) : s.judgeAgreement.sel = { s.sel with
        diff := some (o1 - o2).natAbs, disagree := decide (s.params.refAgree < (o1 - o2).natAbs) } := by
    have hboth : (s.qualified .p1 && s.qualified .p2) = true := by simp [State.qualified, State.port, hq1, hq2]
    simp only [State.judgeAgreement, h1, h2, hboth, if_true]
  cases p with
  | p1 => exact hjudged ho ho' hq hq'
  | p2 =>
    rw [← Int.natAbs_neg, neg_sub]
    exact hjudged ho' ho hq' hq

section

variable {s x : State} {p : Port} {u : OpenPulse} {o : Int} {r : RefPort} {known : Port → Bool}

theorem State.Evaluates.sightOf (h : s.Evaluates x p u o r) : s.sightOf p = x.sightOf p := by
  have hrest := h.rest
  simp only [Prod.mk.injEq] at hrest
  obtain ⟨htb, hsel, hparams, hkey⟩ := hrest
  simp only [State.sightOf, htb, hsel, hparams, hkey, h.switch, h.other]

theorem State.concluded_key (s x : State) (known : Port → Bool) : (s.concluded x known).key = x.key := by
  simp [State.concluded]

theorem State.concluded_port (s x : State) (known : Port → Bool) (q : Port) :
    (s.concluded x known).port q = x.port q :=
  State.port_congr (by simp [State.concluded]) (by simp [State.concluded]) q

theorem State.concluded_views (s x : State) (known : Port → Bool) (i : Nat) :
    (s.concluded x known).views i = (s.portsMoved x).views i := by
  have hcond : (s.concluded x known).cond = (s.slewOnEntry (s.portsMoved x) known).cond := by simp [State.concluded]
  exact (State.views_congr hcond i).trans (State.slewOnEntry_views _ _ _ i)

theorem State.concluded_selection (s x : State) (known : Port → Bool) :
    (s.concluded x known).sel.selection = s.autoSelection x := by
  rw [State.concluded, (State.judgeAgreement_selection _).1, (State.slewOnEntry_frame ..).2.2.2.2.2.2.2.2.1,
    State.portsMoved_sel]

/-- A port that stays QUALIFIED, or stays not, leaves the selection. -/
theorem State.Evaluates.stays (h : s.Evaluates x p u o r) (hq : (x.port p).st = .qualified ↔ r.st = .qualified) :
    (s.portsMoved x).sel = s.sel ∧ s.SelectionKept (s.concluded x known) := by
  have hrest := h.rest
  simp only [Prod.mk.injEq] at hrest
  have hsame (q : Port) : x.qualified q = s.qualified q := by
    rcases Port.eq_or_other p q with rfl | rfl
    · simp only [State.qualified, h.before, decide_eq_decide]
      exact hq
    · exact State.qualified_congr (congrArg RefPort.st h.other)
  obtain ⟨hsel, hcond⟩ := State.portsMoved_stays hsame
  refine ⟨hsel.trans hrest.2.1, ?_, ?_⟩
  · rw [State.concluded_selection, State.autoSelection_stays hsame, hrest.2.1]
  · exact (State.concluded_views s x known 15).trans ((State.views_congr hcond 15).trans h.switch)

/-- What port `p`'s leaving QUALIFIED makes. -/
theorem State.Evaluates.loses (h : s.Evaluates x p u o r) (h0 : r.st = .qualified)
    (h1 : (x.port p).st ≠ .qualified) :
    s.LosesPort (s.concluded x known) p ∧ (s.concluded x known).sel.disagree = false := by
  have hq0 : s.qualified p = true := by simp [State.qualified, h.before, h0]
  have hq1 : x.qualified p = false := by simp [State.qualified, h1]
  obtain ⟨hloses, hdisagree⟩ := State.portsMoved_loses h.other hq0 hq1
  have hkey (hn : x.key.nearTimeCode = false) : x.key.mode ≠ .timeCode := Keyer.not_timeCode_of_not_near hn
  have hmoved : (s.portsMoved x).key = x.key := by simp
  have hentered : (s.slewOnEntry (s.portsMoved x) known).key = x.key := by simp
  have hslewed := hloses.upheld (by rw [hmoved]; exact hkey) (s.slewOnEntry_upholds (s.portsMoved x) known)
  have hjudged := hslewed.upheld (by rw [hentered]; exact hkey)
    (State.judgeAgreement_outlives _).toUpholds
  refine ⟨hjudged.seen h.sightOf, ?_⟩
  have hport : (s.slewOnEntry (s.portsMoved x) known).port p = x.port p := State.port_congr (by simp) (by simp) p
  rw [State.concluded, State.judgeAgreement_idle (p := p) (.inl (by rwa [hport]))]
  simpa using hdisagree

/-- LOCKED entered on the port by an offset that is known: it slews from there on near TIME_CODE, and else waits
for a phase step (R33). -/
theorem State.slewOnEntry_locks {s0 m : State} (hm : m.tb = (x.enterLocked p).tb) (hs : m.sel.selection = some p)
    (hk : known p = true) (he : s0.tb.disc ≠ .locked ∨ s0.sel.selection ≠ some p)
    (ho : (x.port p).lastOffset = o) (ho' : (m.port p).lastOffset = o) (hp : m.params = x.params) :
    let t := s0.slewOnEntry m known
    let c := correctionOf x.params.slew o
    (t.tb.winCount, t.tb.winSum) = (0, 0) ∧
      (o.natAbs ≤ x.params.slew →
        (t.tb.length, t.tb.corr, t.tb.stepWaiting) = (x.tb.length, x.tb.corr, false)) ∧
      (x.params.slew < o.natAbs → x.key.nearTimeCode = true →
        (t.tb.length, t.tb.corr, t.tb.slewing, t.tb.stepWaiting) =
          (x.tb.length + c, x.tb.corr + c, true, false)) ∧
      (x.params.slew < o.natAbs → x.key.nearTimeCode = false →
        (t.tb.length, t.tb.corr, t.tb.stepWaiting) = (x.tb.length, x.tb.corr, true)) := by
  have hslew := State.slewOnEntry_entered hs hk he
  rw [ho', hp] at hslew
  have hstep : m.tb.stepWaiting = (decide (x.params.slew < o.natAbs) && !x.key.nearTimeCode) := by
    rw [hm, ← ho]
    rfl
  have hbase : m.tb.disc = .locked ∧ m.tb.length = x.tb.length ∧ m.tb.corr = x.tb.corr := by
    rw [hm]
    exact ⟨rfl, rfl, rfl⟩
  obtain ⟨hdisc, hlength, hcorr⟩ := hbase
  intro t c
  refine ⟨?_, fun hsmall => ?_, fun hlarge hnear => ?_, fun hlarge hnear => ?_⟩
  · have hwindow : (t.tb.winCount, t.tb.winSum) = (m.tb.winCount, m.tb.winSum) :=
      (s0.slewOnEntry_upholds m known).window
    rw [hwindow, hm]
    rfl
  · have ht : t = m := hslew.trans (if_neg (by omega))
    rw [ht, hlength, hcorr, hstep, decide_eq_false (by omega)]
    rfl
  · have hwait : m.tb.stepWaiting = false := by rw [hstep, hnear]; simp
    have ht : t = m.correct p o := hslew.trans (if_pos hlarge)
    rw [ht, State.correct_steering o hdisc hs hwait]
    simp only [hlength, hcorr, hwait, hp, decide_eq_true hlarge, Bool.or_true]
    rfl
  · have hwait : m.tb.stepWaiting = true := by rw [hstep, hnear, decide_eq_true hlarge]; rfl
    have ht : t = m := (hslew.trans (if_pos hlarge)).trans (State.correct_idle o (by simp [hwait]))
    rw [ht, hlength, hcorr, hwait]

theorem State.Evaluates.lastOffset (h : s.Evaluates x p u o r) : (x.port p).lastOffset = o := by
  rw [h.port]
  exact (RefPort.judge_keeps _ _ _ _).2.1

/-- What port `p`'s becoming QUALIFIED makes. -/
theorem State.Evaluates.gains (h : s.Evaluates x p u o r) (h0 : r.st ≠ .qualified)
    (h1 : (x.port p).st = .qualified) (hk : known p = true) :
    s.GainsPort (s.concluded x known) p o s.tb.length s.tb.corr := by
  have hrest := h.rest
  simp only [Prod.mk.injEq] at hrest
  obtain ⟨htb, hsel, -, -⟩ := hrest
  have hq0 : s.qualified p = false := by simp [State.qualified, h.before, h0]
  have hq1 : x.qualified p = true := by simp [State.qualified, h1]
  have hauto := State.OthersStay.autoSelection_gained h.other hq0 hq1
  have hviews := s.portsMoved_views x
  have hmovedTb := s.portsMoved_tb_eq x
  have hmovedSel : (s.portsMoved x).sel.selection = s.autoSelection x := by rw [State.portsMoved_sel]
  have hkey : (s.slewOnEntry (s.portsMoved x) known).key = x.key := by simp
  have hparams : (s.portsMoved x).params = x.params := by simp
  have hoffset : ((s.portsMoved x).port p).lastOffset = o :=
    (congrArg RefPort.lastOffset (State.port_congr (by simp) (by simp) p)).trans h.lastOffset
  have hupholds := s.slewOnEntry_upholds (s.portsMoved x) known
  have htime : (s.slewOnEntry (s.portsMoved x) known).tb.timeSet = x.tb.timeSet ∧
      (s.slewOnEntry (s.portsMoved x) known).tb.disc = (s.portsMoved x).tb.disc ∧
      (s.slewOnEntry (s.portsMoved x) known).tb.acq = (s.portsMoved x).tb.acq := by simp
  obtain ⟨hset, hdisc, hacq⟩ := htime
  have hbase : x.GainsPort (s.slewOnEntry (s.portsMoved x) known) p o x.tb.length x.tb.corr := by
    unfold State.GainsPort
    rw [hupholds.sel, hmovedSel]
    refine ⟨fun hc => ⟨hauto.trans (if_pos hc), State.Switched.upheld (State.views_of_raised ?_) hupholds⟩,
      fun hc => State.SelectionKept.upheld ⟨?_, ?_⟩ hupholds, fun hp => ⟨fun ht => ?_, fun ht => ?_⟩⟩
    · refine hviews.trans (if_pos ?_)
      rw [hauto, if_pos hc, hc.2]
      simp
    · rw [hmovedSel, hauto, if_neg hc]
    · exact hviews.trans (if_neg (by rw [hauto, if_neg hc]; simp))
    · rw [hset] at ht
      rw [hacq, hmovedTb, State.select_tb_unset ht, hp]
      exact if_pos hq1
    · rw [hset] at ht
      have hon : x.steeringOn (s.autoSelection x) = some p := by
        rw [hp]
        exact if_pos hq1
      refine ⟨?_, fun he => ?_⟩
      · rw [hdisc, hmovedTb, State.select_tb_set ht, hon]
        dsimp only
        split
        case isTrue hl =>
          simp only [Bool.and_eq_true, decide_eq_true_eq] at hl
          exact hl.1
        · rfl
      · have hnew : x.tb.disc ≠ .locked ∨ s.autoSelection x ≠ x.sel.selection := by
          refine he.symm.imp_right fun hc => ?_
          rw [hp, hc.2]
          simp
        have hentered : s.tb.disc ≠ .locked ∨ s.sel.selection ≠ some p := by
          rw [← htb, ← hsel]
          exact hnew.imp_right fun hne hs => hne (hp.trans hs.symm)
        have hlocked := hmovedTb.trans ((State.select_steers hon hnew).1 ht)
        obtain ⟨hwindow, hsmall, hslews, hwaits⟩ := State.slewOnEntry_locks hlocked (hmovedSel.trans hp) hk
          hentered h.lastOffset hoffset hparams
        refine ⟨hwindow, hsmall, hslews, fun hlarge hnear => ?_⟩
        have hstands := hwaits hlarge hnear
        simp only [Prod.mk.injEq] at hstands ⊢
        refine ⟨⟨hstands.1, hstands.2.1⟩, ?_⟩
        rw [hstands.2.2, hkey]
        exact ⟨fun _ => Keyer.not_timeCode_of_not_near hnear, fun _ => rfl⟩
  rw [htb] at hbase
  exact (hbase.outlived (by rw [hkey]; exact Keyer.not_timeCode_of_not_near)
    (State.judgeAgreement_outlives _)).seen h.sightOf

end

end Sys2Proof.Machine

/-! A pulse paired with the latest edge (R28, R47, R48, R49, R58). -/

namespace Sys2Proof.Machine

/-! ## The selector after the evaluation of one pulse -/

section

variable {s x : State} {p : Port} {u : OpenPulse} {o : Int} {r : RefPort} {known : Port → Bool}

theorem State.slewOnEntry_port (s m : State) (known : Port → Bool) (q : Port) :
    (s.slewOnEntry m known).port q = m.port q := State.port_congr (by simp) (by simp) q

theorem State.portsMoved_port (s x : State) (q : Port) : (s.portsMoved x).port q = x.port q :=
  State.port_congr (by simp) (by simp) q

/-- Where nothing is judged the selector stays whole. -/
theorem State.Evaluates.keeps_sel (h : s.Evaluates x p u o r) (hq : (x.port p).st = .qualified ↔ r.st = .qualified)
    (hidle : (x.port p).st ≠ .qualified ∨ (s.port p.other).st ≠ .qualified ∨
      (s.port p.other).edgeOffset = none) : (s.concluded x known).sel = s.sel := by
  have hjudge : (s.concluded x known) = s.slewOnEntry (s.portsMoved x) known := by
    rcases hidle with hp | hother
    · exact State.judgeAgreement_idle (p := p) (.inl (by rwa [State.slewOnEntry_port, State.portsMoved_port]))
    · refine State.judgeAgreement_idle (p := p.other) ?_
      rwa [State.slewOnEntry_port, State.portsMoved_port, h.other]
  rw [hjudge, ← (h.stays (known := known) hq).1]
  simp

/-- Both offsets to the edge are known: the difference is judged. -/
theorem State.Evaluates.judges (h : s.Evaluates x p u o r) (hq : r.st = .qualified)
    (hx : (x.port p).st = .qualified) (hother : (s.port p.other).st = .qualified) {o' : Int}
    (ho : (s.port p.other).edgeOffset = some o') : (s.concluded x known).sel = { s.sel with
      diff := some (o - o').natAbs, disagree := decide (s.params.refAgree < (o - o').natAbs) } := by
  have hrest := h.rest
  simp only [Prod.mk.injEq] at hrest
  have hports (q : Port) : (s.slewOnEntry (s.portsMoved x) known).port q = x.port q := by
    rw [State.slewOnEntry_port, State.portsMoved_port]
  have hoffset : (x.port p).edgeOffset = some o := by
    rw [h.port]
    exact (RefPort.judge_keeps _ _ _ _).2.2.1
  have hsel : (s.slewOnEntry (s.portsMoved x) known).sel = s.sel := by
    rw [← (h.stays (known := known) (iff_of_true hx hq)).1]
    simp
  have hparams : (s.slewOnEntry (s.portsMoved x) known).params = s.params := by simp [hrest.2.2.1]
  have hjudged := State.judgeAgreement_sel (s := s.slewOnEntry (s.portsMoved x) known) (p := p) (o := o) (o' := o')
    (by rw [hports, hx]) (by rw [hports, h.other, hother]) (by rw [hports, hoffset]) (by rw [hports, h.other, ho])
  rw [hsel, hparams] at hjudged
  exact hjudged

end

/-! ## The evaluation in the conditions (R49, R50) -/

theorem State.completePulse_views_other (s : State) (p : Port) (u : OpenPulse) (o : Int) {i : Nat} (hi : i ≠ 13) :
    (s.completePulse p u o).views i = s.views i :=
  (State.raiseIf_views_other _ _ .timeMismatch hi).trans (State.movePort_views _ _ _ _)

theorem State.completePulse_views_mismatch (s : State) (p : Port) (u : OpenPulse) (o : Int) :
    (s.completePulse p u o).views 13 =
      if (s.port p).st = .qualified ∧ s.mismatch u.label = true then (true, true) else s.views 13 := by
  refine (State.raiseIf_views_self _ _ .timeMismatch).trans ?_
  rw [State.movePort_views]
  simp [State.qualified, Event.item]

theorem State.completePulse_live (s : State) (p : Port) (u : OpenPulse) (o : Int) :
    (s.completePulse p u o).cond.live[(refDisqualify p).id] =
      if (s.port p).st = .qualified ∧ ((s.completePulse p u o).port p).st ≠ .qualified then
        min counterMax (s.cond.live[(refDisqualify p).id] + 1) else s.cond.live[(refDisqualify p).id] := by
  have hraise (y : State) (b : Bool) (e : Event) : (y.raiseIf b e).cond.live = y.cond.live := by
    cases b <;> rfl
  rw [(s.completePulse_port p u o).1, ← State.movePort_live]
  exact congrArg (fun v : Vector Nat 12 => v[(refDisqualify p).id]) (hraise _ _ _)

theorem State.correct_live (s : State) (p q : Port) (o : Int) :
    (s.correct p o).cond.live[(refDisqualify q).id] = s.cond.live[(refDisqualify q).id] := by
  unfold State.correct
  split
  · extract_lets c limited s1
    have hcount : s1.cond.live[(refDisqualify q).id] = s.cond.live[(refDisqualify q).id] := by
      simp only [s1]
      split
      · exact s.count_live_other 1 (by cases q <;> decide)
      · rfl
    exact hcount
  · rfl

/-! ## The pulse -/

/-- The offset of a pulse now to the latest edge. -/
def State.offsetNow (s : State) (dt : Nat) : Int := -((s.now + dt - s.tb.edgeAt : Nat) : Int)

/-- The state in which port `p` has taken its pulse and corrected by it. -/
def State.pulseCorrected (s : State) (p : Port) (dt : Nat) : State :=
  (s.pulseTaken p dt).correct p (s.offsetNow dt)

/-- The state in which the pulse has been evaluated. -/
def State.pulseEvaluated (s : State) (p : Port) (dt : Nat) : State :=
  (s.pulseCorrected p dt).completePulse p (s.pulseIn p dt) (s.offsetNow dt)

section

variable {s : State} {p : Port} {dt : Nat}

theorem State.exec_refPulse_pairs (hp : s.por = false) (hst : (s.port p).st ≠ .disabled)
    (hmade : s.tb.edgeMade = true) (hfrom : s.tb.edgeAt ≤ s.now + dt) (hto : s.now + dt ≤ s.tb.edgeAt + 5000000)
    (hno : ¬(s.tb.timeSet = false ∧ s.tb.acq = some p ∧ ∃ x, (s.port p).waiting = some x ∧ x.sec ≤ 86399)) :
    exec (.refPulse p dt) s =
      .next ((s.pulseCorrected p dt).concluded (s.pulseEvaluated p dt) (· = p)).settle := by
  have ho : (s.pulseTaken p dt).offsetOf (s.pulseIn p dt).at_ = s.offsetNow dt := by
    rw [State.offsetOf, (s.pulseTaken_tb p dt).1, State.offsetNow, Nat.cast_sub hfrom]
    exact (neg_sub _ _).symm
  rw [State.exec_refPulse hp hst dt, State.pulseEffects_pairs hno hmade hto, State.pulseNow, ho]
  rfl

theorem State.pulseCorrected_frame (s : State) (p : Port) (dt : Nat) :
    let a := s.pulseCorrected p dt
    a.port p = (s.port p).pulse s.params.qualWindow (s.now + dt) ∧ a.port p.other = s.port p.other ∧
      a.sel = s.sel ∧ a.params = s.params ∧ a.key = s.key ∧
      (a.tb.timeSet, a.tb.day, a.tb.sec, a.tb.disc) = (s.tb.timeSet, s.tb.day, s.tb.sec, s.tb.disc) ∧
      (∀ i, a.views i = s.views i) ∧
      a.cond.live[(refDisqualify p).id] = s.cond.live[(refDisqualify p).id] := by
  obtain ⟨htb, hsel, hparams, hcond, -, -, hkey⟩ := s.pulseTaken_tb p dt
  obtain ⟨hport, hother⟩ := s.pulseTaken_port p dt
  have hports (q : Port) : (s.pulseCorrected p dt).port q = (s.pulseTaken p dt).port q :=
    State.port_congr (by simp [State.pulseCorrected]) (by simp [State.pulseCorrected]) q
  refine ⟨(hports p).trans hport, (hports _).trans hother, ?_, ?_, ?_, ?_, fun i => ?_, ?_⟩
  · simpa [State.pulseCorrected] using hsel
  · simpa [State.pulseCorrected] using hparams
  · simpa [State.pulseCorrected] using hkey
  · simp [State.pulseCorrected, htb]
  · exact (State.correct_views _ _ _ _).trans (State.views_congr hcond i)
  · exact (State.correct_live _ _ _ _).trans (by rw [hcond])

/-- The port that takes a pulse is the one evaluated. -/
theorem State.pulseEvaluated_evaluates (s : State) (p : Port) (dt : Nat) :
    (s.pulseCorrected p dt).Evaluates (s.pulseEvaluated p dt) p (s.pulseIn p dt) (s.offsetNow dt)
      ((s.port p).pulse s.params.qualWindow (s.now + dt)) := by
  obtain ⟨hport, -, -, -, -, -, -, -⟩ := s.pulseCorrected_frame p dt
  obtain ⟨hjudged, hother⟩ := (s.pulseCorrected p dt).completePulse_port p (s.pulseIn p dt) (s.offsetNow dt)
  refine ⟨?_, by rw [hport], hother, by simp [State.pulseEvaluated],
    State.completePulse_views_other _ _ _ _ (by decide)⟩
  rw [hport] at hjudged
  exact hjudged

theorem RefPort.pulse_present {r : RefPort} (h : r.st ≠ .absent) (window now : Nat) :
    (r.pulse window now).st = r.st := (r.pulse_st window now).1.trans (if_neg h)

theorem State.pulseCorrected_mismatch (s : State) (p : Port) (dt : Nat) :
    (s.pulseCorrected p dt).mismatch (s.pulseIn p dt).label = s.mismatch (s.port p).waiting := by
  obtain ⟨-, -, -, -, -, htime, -, -⟩ := s.pulseCorrected_frame p dt
  simp only [Prod.mk.injEq] at htime
  obtain ⟨hset, hday, hsec, -⟩ := htime
  simp only [State.mismatch, hset, hday, hsec]
  rfl

/-- What the pulse leaves of its port's events and exits. -/
theorem State.pulseEvaluated_cond (hst : (s.port p).st ≠ .absent) :
    (s.pulseEvaluated p dt).views 13 =
        (if (s.port p).st = .qualified ∧ s.mismatch (s.port p).waiting = true then (true, true) else s.views 13) ∧
      (s.pulseEvaluated p dt).cond.live[(refDisqualify p).id] =
        if (s.port p).st = .qualified ∧ ((s.pulseEvaluated p dt).port p).st ≠ .qualified then
          min counterMax (s.cond.live[(refDisqualify p).id] + 1) else s.cond.live[(refDisqualify p).id] := by
  obtain ⟨hport, -, -, -, -, -, hviews, hlive⟩ := s.pulseCorrected_frame p dt
  have hst' : ((s.pulseCorrected p dt).port p).st = (s.port p).st := by rw [hport, RefPort.pulse_present hst]
  refine ⟨?_, ?_⟩
  · refine ((s.pulseCorrected p dt).completePulse_views_mismatch p _ _).trans ?_
    rw [hst', State.pulseCorrected_mismatch, hviews]
  · refine ((s.pulseCorrected p dt).completePulse_live p _ _).trans ?_
    rw [hst', hlive]
    rfl

end

/-! ## The pulse by its interval and its label (R47) -/

section

variable {r : RefPort} {window now : Nat}

/-- The interval since the last pulse is that of a second, within the window. -/
def regularSince (window now last : Nat) : Prop :=
  10000000 ≤ now - last + window ∧ now - last ≤ 10000000 + window

theorem RefPort.intervalAt_regular : r.intervalAt window now = .regular ↔
    ∃ last, r.lastPulse = some last ∧ regularSince window now last := by
  rw [RefPort.intervalAt_eq]
  cases r.lastPulse with
  | none => simp
  | some last =>
    simp only [Option.some.injEq, exists_eq_left', regularSince]
    split <;> simp_all

theorem RefPort.intervalAt_irregular : r.intervalAt window now = .irregular ↔
    ∃ last, r.lastPulse = some last ∧ ¬regularSince window now last := by
  rw [RefPort.intervalAt_eq]
  cases r.lastPulse with
  | none => simp
  | some last =>
    simp only [Option.some.injEq, exists_eq_left', regularSince]
    split <;> simp_all

theorem RefPort.irregAfter_pulse (hst : r.st ≠ .absent) :
    (r.pulse window now).irregAfter (r.openPulse window now) = match r.lastPulse with
      | none => r.irregRun
      | some last => if 10000000 ≤ now - last + window ∧ now - last ≤ 10000000 + window then 0
        else r.irregRun + 1 := by
  have hrun : (r.pulse window now).irregRun = r.irregRun := by
    have hkeeps := (r.pulse_keeps window now).2.2.2 hst
    simp only [Prod.mk.injEq] at hkeeps
    exact hkeeps.2.1
  simp only [RefPort.irregAfter, RefPort.openPulse, RefPort.intervalAt_eq, hrun]
  cases r.lastPulse with
  | none => rfl
  | some last =>
    by_cases hreg : 10000000 ≤ now - last + window ∧ now - last ≤ 10000000 + window
    · simp only [if_pos hreg]
    · simp only [if_neg hreg]

end

end Sys2Proof.Machine

/-! What a pulse paired with the latest edge makes of its port, in CANDIDATE and in QUALIFIED (R48, R49, R58). -/

namespace Sys2Proof.Machine

/-- The second that a gain of the selection slews is read only where LOCKED is entered. -/
theorem State.GainsPort.of_second {s t : State} {p : Port} {o length corr length' corr' : Int}
    (h : s.GainsPort t p o length corr)
    (hs : (s.sel.mode = .auto ∧ s.sel.selection = none) ∨ s.tb.disc ≠ .locked →
      length' = length ∧ corr' = corr) : s.GainsPort t p o length' corr' := by
  obtain ⟨hchosen, hnot, hlocks⟩ := h
  refine ⟨hchosen, hnot, fun hp => ⟨(hlocks hp).1, fun ht => ⟨((hlocks hp).2 ht).1, fun he => ?_⟩⟩⟩
  obtain ⟨hlength, hcorr⟩ := hs he
  rw [hlength, hcorr]
  exact ((hlocks hp).2 ht).2 he

/-- Slewing counts no exit from QUALIFIED. -/
theorem State.concluded_live (s x : State) (known : Port → Bool) (p : Port) :
    (s.concluded x known).cond.live[(refDisqualify p).id] = x.cond.live[(refDisqualify p).id] := by
  have hmoved : (s.portsMoved x).cond.live[(refDisqualify p).id] = x.cond.live[(refDisqualify p).id] := by
    rw [State.portsMoved_live]
  have hcond : (s.concluded x known).cond = (s.slewOnEntry (s.portsMoved x) known).cond := by simp [State.concluded]
  rw [hcond, ← hmoved]
  unfold State.slewOnEntry
  split
  · rfl
  · dsimp only
    split
    · exact (s.portsMoved x).correct_live _ p _
    · rfl

/-- The state after a pulse of port `p` that is paired with the latest edge. -/
def State.pulsePaired (s : State) (p : Port) (dt : Nat) : State :=
  ((s.pulseCorrected p dt).concluded (s.pulseEvaluated p dt) (· = p)).settle

section

variable {s : State} {p : Port} {dt : Nat}

theorem State.pulsePaired_port (s : State) (p q : Port) (dt : Nat) :
    (s.pulsePaired p dt).port q = (s.pulseEvaluated p dt).port q :=
  (State.port_congr rfl rfl q).trans (State.concluded_port _ _ _ q)

theorem State.pulsePaired_outlives (s : State) (p : Port) (dt : Nat) :
    ((s.pulseCorrected p dt).concluded (s.pulseEvaluated p dt) (· = p)).Outlives (s.pulsePaired p dt) :=
  State.Outlives.of_eq rfl rfl (State.settle_views _ (by decide)) rfl

theorem State.pulseCorrected_sightOf (s : State) (p : Port) (dt : Nat) :
    s.sightOf p = (s.pulseCorrected p dt).sightOf p := by
  obtain ⟨-, hother, hsel, hparams, hkey, htime, hviews, -⟩ := s.pulseCorrected_frame p dt
  simp only [Prod.mk.injEq] at htime
  simp only [State.sightOf, hother, hsel, hparams, hkey, htime.2.2.2, hviews]

theorem State.pulsePaired_mode (s : State) (p : Port) (dt : Nat) :
    (s.pulseCorrected p dt).key.nearTimeCode = false →
      ((s.pulseCorrected p dt).concluded (s.pulseEvaluated p dt) (· = p)).key.mode ≠ .timeCode := by
  have hkey : ((s.pulseCorrected p dt).concluded (s.pulseEvaluated p dt) (· = p)).key =
      (s.pulseCorrected p dt).key := by
    rw [State.concluded_key]
    simp [State.pulseEvaluated]
  rw [hkey]
  exact Keyer.not_timeCode_of_not_near

/-- The pulse leaves broadcast time, and gives its port its offset. -/
theorem State.pulsePaired_time (s : State) (p : Port) (dt : Nat) :
    ((s.pulsePaired p dt).port p).lastOffset = s.offsetNow dt ∧
      ((s.pulsePaired p dt).tb.timeSet, (s.pulsePaired p dt).tb.day, (s.pulsePaired p dt).tb.sec) =
        (s.tb.timeSet, s.tb.day, s.tb.sec) := by
  obtain ⟨-, -, -, -, -, htime, -, -⟩ := s.pulseCorrected_frame p dt
  simp only [Prod.mk.injEq] at htime
  refine ⟨?_, ?_⟩
  · rw [State.pulsePaired_port]
    exact (s.pulseEvaluated_evaluates p dt).lastOffset
  · rw [← htime.1, ← htime.2.1, ← htime.2.2.1]
    simp [State.pulsePaired, State.concluded, State.pulseEvaluated]

/-- What a pulse makes of a CANDIDATE. -/
theorem State.pulsePaired_candidate (hr : (s.port p).st = .candidate) :
    let t := s.pulsePaired p dt
    let good := (s.pulseIn p dt).Good (s.mismatch (s.port p).waiting)
    (¬good → (t.port p).st = .candidate ∧ (t.port p).goodRun = 0 ∧ t.sel = s.sel) ∧
      (good → (s.port p).goodRun + 1 < s.params.qualCount →
        (t.port p).st = .candidate ∧ (t.port p).goodRun = (s.port p).goodRun + 1 ∧ t.sel = s.sel) ∧
      (good → s.params.qualCount ≤ (s.port p).goodRun + 1 → (t.port p).st = .qualified ∧
        ((t.port p).goodRun, (t.port p).irregRun, (t.port p).unlabRun) = (0, 0, 0) ∧
        s.GainsPort t p (s.offsetNow dt) s.tb.length s.tb.corr) := by
  have hna : (s.port p).st ≠ .absent := by simp [hr]
  obtain ⟨-, -, hsel, hparams, -, htime, -, -⟩ := s.pulseCorrected_frame p dt
  have he := s.pulseEvaluated_evaluates p dt
  have hjudge := he.port
  have hst := (RefPort.pulse_present hna s.params.qualWindow (s.now + dt)).trans hr
  have hruns := ((s.port p).pulse_keeps s.params.qualWindow (s.now + dt)).2.2.2 hna
  rw [State.pulseCorrected_mismatch, hparams] at hjudge
  generalize (s.port p).pulse s.params.qualWindow (s.now + dt) = r at *
  simp only [Prod.mk.injEq] at hruns
  obtain ⟨hgood, -, -⟩ := hruns
  have hstays (h : ((s.pulseEvaluated p dt).port p).st = .candidate) : (s.pulsePaired p dt).sel = s.sel :=
    (he.keeps_sel (known := (· = p)) (iff_of_false (by simp [h]) (by simp [hst])) (.inl (by simp [h]))).trans hsel
  intro t good
  rw [show t.port p = _ from s.pulsePaired_port p p dt]
  refine ⟨fun hb => ?_, fun hg hn => ?_, fun hg hn => ?_⟩
  · rw [RefPort.judge_ended (by exact hst) hb] at hjudge
    have hafter : ((s.pulseEvaluated p dt).port p).st = .candidate := by rw [hjudge]; exact hst
    exact ⟨hafter, by rw [hjudge], hstays hafter⟩
  · rw [RefPort.judge_grows (by exact hst) hg (by rw [hgood]; exact hn)] at hjudge
    have hafter : ((s.pulseEvaluated p dt).port p).st = .candidate := by rw [hjudge]; exact hst
    exact ⟨hafter, by rw [hjudge, ← hgood], hstays hafter⟩
  · rw [RefPort.judge_qualifies (by exact hst) hg (by rw [hgood]; exact hn)] at hjudge
    have hafter : ((s.pulseEvaluated p dt).port p).st = .qualified := by rw [hjudge]; rfl
    refine ⟨hafter, by rw [hjudge]; rfl, ?_⟩
    have hgains := he.gains (known := (· = p)) (by simp [hst]) hafter (by simp)
    have hlater := (hgains.outlived (s.pulsePaired_mode p dt) (s.pulsePaired_outlives p dt)).seen
      (s.pulseCorrected_sightOf p dt)
    refine hlater.of_second fun hopen => ?_
    obtain ⟨htb, hsel', -, -, -, -, -⟩ := s.pulseTaken_tb p dt
    have hidle : s.pulseCorrected p dt = s.pulseTaken p dt := State.correct_idle _ fun hc => by
      rw [htb, hsel'] at hc
      rcases hopen with ho | ho
      · simp [ho.2] at hc
      · exact ho hc.1
    rw [hidle, htb]
    exact ⟨rfl, rfl⟩

/-- What a pulse makes of a QUALIFIED port. -/
theorem State.pulsePaired_qualified (hr : (s.port p).st = .qualified) :
    let t := s.pulsePaired p dt
    let r := (s.port p).pulse s.params.qualWindow (s.now + dt)
    let lost := r.Lost s.params (s.pulseIn p dt) (s.mismatch (s.port p).waiting)
    t.views 13 = (if s.mismatch (s.port p).waiting then (true, true) else s.views 13) ∧
      (lost → (t.port p).st = .candidate ∧ t.sel.disagree = false ∧
        ((t.port p).goodRun, (t.port p).irregRun, (t.port p).unlabRun) = (0, 0, 0) ∧
        t.cond.live[(refDisqualify p).id] = min counterMax (s.cond.live[(refDisqualify p).id] + 1) ∧
        s.LosesPort t p) ∧
      (¬lost → (t.port p).st = .qualified ∧
        ((t.port p).irregRun, (t.port p).unlabRun) = (r.irregAfter (s.pulseIn p dt), r.unlabAfter (s.pulseIn p dt)) ∧
        t.cond.live[(refDisqualify p).id] = s.cond.live[(refDisqualify p).id] ∧ s.SelectionKept t ∧
        ((s.port p.other).st = .qualified → ∀ o', (s.port p.other).edgeOffset = some o' →
          t.sel = { s.sel with
            diff := some (s.offsetNow dt - o').natAbs
            disagree := decide (s.params.refAgree < (s.offsetNow dt - o').natAbs) }) ∧
        ((s.port p.other).st ≠ .qualified ∨ (s.port p.other).edgeOffset = none → t.sel = s.sel)) := by
  have hna : (s.port p).st ≠ .absent := by simp [hr]
  obtain ⟨-, hother, hsel, hparams, -, -, -, -⟩ := s.pulseCorrected_frame p dt
  obtain ⟨hview, hlive⟩ := State.pulseEvaluated_cond (dt := dt) hna
  have he := s.pulseEvaluated_evaluates p dt
  have hjudge := he.port
  have hst := (RefPort.pulse_present hna s.params.qualWindow (s.now + dt)).trans hr
  rw [State.pulseCorrected_mismatch, hparams] at hjudge
  have hlater : (s.pulsePaired p dt).cond.live[(refDisqualify p).id] =
      (s.pulseEvaluated p dt).cond.live[(refDisqualify p).id] :=
    State.concluded_live (s.pulseCorrected p dt) (s.pulseEvaluated p dt) (· = p) p
  generalize (s.port p).pulse s.params.qualWindow (s.now + dt) = r at *
  intro t r' lost
  rw [show t.port p = _ from s.pulsePaired_port p p dt]
  refine ⟨?_, fun hl => ?_, fun hl => ?_⟩
  · refine (State.settle_views _ (by decide)).trans ((State.concluded_views _ _ _ 13).trans ?_)
    rw [State.portsMoved_views_other _ _ (by decide), hview]
    simp only [hr, true_and]
  · replace hjudge := hjudge.trans (RefPort.judge_lost (by exact hst) (by exact hl))
    have hafter : ((s.pulseEvaluated p dt).port p).st = .candidate := by rw [hjudge]; rfl
    obtain ⟨hloses, hdisagree⟩ := he.loses (known := (· = p)) hst (by simp [hafter])
    refine ⟨hafter, hdisagree, by rw [hjudge]; rfl, ?_, ?_⟩
    · exact hlater.trans (hlive.trans (if_pos ⟨hr, by simp [hafter]⟩))
    · exact (hloses.upheld (s.pulsePaired_mode p dt) (s.pulsePaired_outlives p dt).toUpholds).seen
        (s.pulseCorrected_sightOf p dt)
  · replace hjudge := hjudge.trans (RefPort.judge_kept (by exact hst) (by exact hl))
    have hafter : ((s.pulseEvaluated p dt).port p).st = .qualified := by rw [hjudge]; exact hst
    have hkept := (he.stays (known := (· = p)) (iff_of_true hafter hst)).2
    refine ⟨hafter, by rw [hjudge]; rfl, ?_, ?_, fun hq o' ho => ?_, fun hn => ?_⟩
    · exact hlater.trans (hlive.trans (if_neg (by simp [hafter])))
    · exact (hkept.upheld (s.pulsePaired_outlives p dt).toUpholds).seen (s.pulseCorrected_sightOf p dt)
    · have hjudged := he.judges (known := (· = p)) hst hafter (by rw [hother]; exact hq) (by rw [hother]; exact ho)
      rw [hsel, hparams] at hjudged
      exact hjudged
    · exact (he.keeps_sel (known := (· = p)) (iff_of_true hafter hst) (.inr (by rwa [hother]))).trans hsel

end

end Sys2Proof.Machine

/-! The pulses that wait for a counted edge, evaluated (R47, R48, R49, R54, R58). -/

namespace Sys2Proof.Machine

/-! ## The parts of a counted edge -/

/-- The state in which a counted edge has been made, before its pulses. -/
def State.edgeFound (s : State) : State := (s.waitUntil s.tb.due).beginEdge .counted

/-- The state in which the pulses have corrected the second that the edge begins. -/
def State.edgeCorrected (s : State) : State := (s.edgeFound.correctOpen .p1).correctOpen .p2

/-- The state in which the pulses have been evaluated. -/
def State.edgeEvaluated (s : State) : State := (s.edgeCorrected.completeOpen .p1).completeOpen .p2

/-- The state after a counted edge. -/
def State.edgeLeft (s : State) : State := s.edgeBegun.edgeFinished.settle

/-- A timebase that has the edge begun as LOCKED and the levels loaded goes on as it stood. -/
theorem State.marked_outlives (s : State) : s.Outlives s.markBegun.loadLevels.edgeFinished.settle := by
  have hrest := s.markBegun.loadLevels.edgeFinished_outlives
  have htime := hrest.time
  have hwindow := hrest.window
  have hsecond := hrest.second
  have hstep := hrest.step
  simp only [Prod.mk.injEq] at htime hwindow hsecond
  have hbefore : s.markBegun.loadLevels.tb = { s.tb with begunLocked := s.tb.disc = .locked } := by
    simp [State.markBegun]
  have hmode : s.markBegun.loadLevels.key.mode = s.key.mode := by simp [State.loadLevels, State.markBegun]
  have hsel : s.markBegun.loadLevels.sel = s.sel := by simp
  have hview : s.markBegun.loadLevels.views 15 = s.views 15 := State.views_congr (by simp) 15
  rw [hbefore] at htime hwindow hsecond hstep
  rw [hmode] at hstep
  refine ⟨⟨hrest.sel.trans (congrArg Selector.selection hsel), ?_, Prod.ext htime.1 ?_, Prod.ext hwindow.1 hwindow.2,
    hstep⟩, Prod.ext hsecond.1 (Prod.ext hsecond.2.1 hsecond.2.2)⟩
  · exact (State.settle_views _ (by decide)).trans (hrest.view.trans hview)
  · exact Prod.ext htime.2.1 (Prod.ext htime.2.2.1 (Prod.ext htime.2.2.2.1 htime.2.2.2.2))

section

variable {s : State} {p : Port}

theorem State.edgeFound_tb (s : State) : s.edgeFound.tb = s.tb.edge .counted (max s.now s.tb.due) := rfl

theorem State.correctOpen_views (s : State) (p : Port) (i : Nat) : (s.correctOpen p).views i = s.views i :=
  foldl_keeps (P := fun t : State => t.views i = s.views i) (fun t _ ht => (t.correct_views p _ i).trans ht) _ _ rfl

theorem State.correctOpen_live (s : State) (p q : Port) :
    (s.correctOpen p).cond.live[(refDisqualify q).id] = s.cond.live[(refDisqualify q).id] :=
  foldl_keeps (P := fun t : State => t.cond.live[(refDisqualify q).id] = s.cond.live[(refDisqualify q).id])
    (fun t _ ht => (t.correct_live p q _).trans ht) _ _ rfl

theorem State.completeOpen_views_other (s : State) (p : Port) {i : Nat} (hi : i ≠ 13) :
    (s.completeOpen p).views i = s.views i :=
  foldl_keeps (P := fun t : State => t.views i = s.views i)
    (fun t _ ht => (t.completePulse_views_other p _ _ hi).trans ht) _ _
    (State.views_congr (by simp) i)

/-- What the corrections leave. -/
theorem State.edgeCorrected_frame (s : State) :
    let c := s.edgeCorrected
    let e := s.tb.edge .counted (max s.now s.tb.due)
    (∀ q, c.port q = (s.port q).freshEdge) ∧ c.sel = s.sel ∧ c.params = s.params ∧ c.key = s.key ∧
      (c.tb.timeSet, c.tb.day, c.tb.sec, c.tb.edgeAt, c.tb.disc) =
        (e.timeSet, e.day, e.sec, max s.now s.tb.due, s.tb.disc) ∧
      (∀ i, c.views i = s.views i) ∧
      (∀ q, c.cond.live[(refDisqualify q).id] = s.cond.live[(refDisqualify q).id]) := by
  have hports (q : Port) : s.edgeCorrected.port q = s.edgeFound.port q :=
    State.port_congr (by simp [State.edgeCorrected]) (by simp [State.edgeCorrected]) q
  have hfound : s.edgeFound.cond = s.cond := rfl
  obtain ⟨hdisc, -, -, -, -, -, -, -⟩ := s.tb.edge_counted_keeps (max s.now s.tb.due)
  refine ⟨fun q => (hports q).trans ?_, ?_, ?_, ?_, ?_, fun i => ?_, fun q => ?_⟩
  · cases q <;> rfl
  · simp [State.edgeCorrected, State.edgeFound, State.beginEdge, State.waitUntil]
  · simp [State.edgeCorrected, State.edgeFound, State.beginEdge, State.waitUntil]
  · simp [State.edgeCorrected, State.edgeFound, State.beginEdge, State.waitUntil]
  · simp [State.edgeCorrected, State.edgeFound_tb, hdisc, s.tb.edge_begun .counted]
  · exact ((s.edgeFound.correctOpen .p1).correctOpen_views .p2 i).trans
      ((s.edgeFound.correctOpen_views .p1 i).trans (State.views_congr hfound i))
  · exact ((s.edgeFound.correctOpen .p1).correctOpen_live .p2 q).trans (s.edgeFound.correctOpen_live .p1 q)

theorem State.edgeEvaluated_frame (s : State) :
    let x := s.edgeEvaluated
    let c := s.edgeCorrected
    (∀ q, x.port q = c.evaluatedAll (s.port q).freshEdge) ∧
      (x.tb, x.sel, x.params, x.key) = (c.tb, c.sel, c.params, c.key) ∧ x.views 15 = s.views 15 := by
  obtain ⟨hports, -, -, -, -, hviews, -⟩ := s.edgeCorrected_frame
  refine ⟨fun q => ?_, by simp [State.edgeEvaluated], ?_⟩
  · rw [← hports q]
    exact s.edgeCorrected.completeBoth_evaluated q
  · exact ((s.edgeCorrected.completeOpen .p1).completeOpen_views_other .p2 (by decide)).trans
      ((s.edgeCorrected.completeOpen_views_other .p1 (by decide)).trans (hviews 15))

theorem State.pulsesAtEdge_views (s : State) (i : Nat) : (s.pulsesAtEdge .counted).views i =
    (((s.correctOpen .p1).correctOpen .p2).portsMoved
      ((((s.correctOpen .p1).correctOpen .p2).completeOpen .p1).completeOpen .p2)).views i := by
  simp only [State.pulsesAtEdge, if_true]
  split
  · refine Eq.trans ?_ (((s.correctOpen .p1).correctOpen .p2).slewOnEntry_views _ s.hasOpen i)
    exact State.views_congr (by simp) i
  · exact State.slewOnEntry_views _ _ _ i

theorem State.edgeLeft_port (s : State) (p : Port) :
    ∃ b, s.edgeLeft.port p = { s.edgeEvaluated.port p with leapDis := b } := by
  obtain ⟨b, hb⟩ := s.edgeBegun.edgeFinished_port p
  have hbegun : s.edgeBegun.port p = s.edgeEvaluated.port p :=
    ((s.waitUntil s.tb.due).edgeStarted_port p).trans (s.edgeFound.pulsesAtEdge_port p)
  exact ⟨b, (State.port_congr rfl rfl p).trans (hb.trans (by rw [hbegun]))⟩

/-- The selection that a counted edge leaves, and its event. -/
theorem State.edgeLeft_selection (s : State) :
    s.edgeLeft.sel.selection = s.edgeCorrected.autoSelection s.edgeEvaluated ∧
      s.edgeLeft.views 15 = if s.sel.selection ≠ s.edgeCorrected.autoSelection s.edgeEvaluated then (true, true)
        else s.views 15 := by
  have hsel : s.edgeLeft.sel = (s.edgeFound.pulsesAtEdge .counted).sel := by
    have hkept : s.edgeLeft.sel = s.edgeBegun.sel := s.edgeBegun.edgeFinished_frame.2.2.2.2.2.2.2.1
    exact hkept.trans ((s.waitUntil s.tb.due).edgeStarted_sel .counted)
  have hrest := s.edgeEvaluated_frame.2.1
  simp only [Prod.mk.injEq] at hrest
  have hview : s.edgeLeft.views 15 = (s.edgeCorrected.portsMoved s.edgeEvaluated).views 15 := by
    have hcond : s.edgeBegun.cond = (s.edgeFound.pulsesAtEdge .counted).cond := by
      simp [State.edgeBegun, State.edgeFound]
    exact (State.settle_views _ (by decide)).trans ((s.edgeBegun.edgeFinished_switch.1).trans
      ((State.views_congr hcond 15).trans (s.edgeFound.pulsesAtEdge_views 15)))
  refine ⟨?_, ?_⟩
  · rw [hsel, State.pulsesAtEdge_selection, State.portsMoved_sel]
    rfl
  · rw [hview, State.portsMoved_views, hrest.2.1, s.edgeEvaluated_frame.2.2, s.edgeCorrected_frame.2.1]

/-- With a pulse that waited the agreement is judged. -/
theorem State.edgeBegun_concluded (h : (s.port p).openPulses ≠ []) : s.edgeBegun =
    (s.edgeCorrected.concluded s.edgeEvaluated s.edgeFound.hasOpen).markBegun.loadLevels := by
  have hopen : (s.edgeFound.hasOpen .p1 || s.edgeFound.hasOpen .p2) = true := by
    have hfresh : (s.edgeFound.port p).openPulses = (s.port p).openPulses := by cases p <;> rfl
    have hp : s.edgeFound.hasOpen p = true := by simp [State.hasOpen, hfresh, h]
    cases p <;> simp [hp]
  have hpulses : s.edgeFound.pulsesAtEdge .counted =
      s.edgeCorrected.concluded s.edgeEvaluated s.edgeFound.hasOpen := by
    simp only [State.pulsesAtEdge, if_true, hopen]
    rfl
  rw [← hpulses]
  rfl

end

end Sys2Proof.Machine

/-! What a counted edge makes of a port with one pulse that waited (R47, R48, R49, R58). -/

namespace Sys2Proof.Machine

/-! ## The conditions -/

theorem State.completeOpen_one_cond {s : State} {p : Port} {u : OpenPulse} (h : (s.port p).openPulses = [u]) :
    (s.completeOpen p).views 13 =
        (if (s.port p).st = .qualified ∧ s.mismatch u.label = true then (true, true) else s.views 13) ∧
      (s.completeOpen p).cond.live[(refDisqualify p).id] =
        if (s.port p).st = .qualified ∧ ((s.completeOpen p).port p).st ≠ .qualified then
          min counterMax (s.cond.live[(refDisqualify p).id] + 1) else s.cond.live[(refDisqualify p).id] := by
  have hset : (s.setPort p { s.port p with openPulses := [] }).cond = s.cond := by simp
  have hst : ((s.setPort p { s.port p with openPulses := [] }).port p).st = (s.port p).st := by simp
  have hmismatch : (s.setPort p { s.port p with openPulses := [] }).mismatch u.label = s.mismatch u.label := by
    simp [State.mismatch]
  rw [State.completeOpen_one h, State.completePulse_views_mismatch, State.completePulse_live, hst, hset, hmismatch,
    State.views_congr hset 13]
  exact ⟨rfl, rfl⟩

/-- Where the pulse of port `p` was a mismatch in QUALIFIED TIME_MISMATCH is raised; and its exits. -/
theorem State.edgeEvaluated_cond {s : State} {p : Port} {u : OpenPulse} (h : (s.port p).openPulses = [u]) :
    ((s.port p).st = .qualified → s.edgeCorrected.mismatch u.label = true →
        s.edgeEvaluated.views 13 = (true, true)) ∧
      s.edgeEvaluated.cond.live[(refDisqualify p).id] =
        if (s.port p).st = .qualified ∧ (s.edgeEvaluated.port p).st ≠ .qualified then
          min counterMax (s.cond.live[(refDisqualify p).id] + 1) else s.cond.live[(refDisqualify p).id] := by
  obtain ⟨hports, -, -, -, -, -, hlive⟩ := s.edgeCorrected_frame
  have hfresh (q : Port) : (s.edgeCorrected.port q).openPulses = (s.port q).openPulses ∧
      (s.edgeCorrected.port q).st = (s.port q).st := by rw [hports q]; exact ⟨rfl, rfl⟩
  have hone : (s.edgeCorrected.port p).openPulses = [u] := (hfresh p).1.trans h
  cases p with
  | p1 =>
    obtain ⟨hview, hexits⟩ := State.completeOpen_one_cond hone
    have hport : s.edgeEvaluated.port .p1 = (s.edgeCorrected.completeOpen .p1).port .p1 :=
      ((s.edgeCorrected.completeOpen .p1).completeOpen_port .p2).2
    refine ⟨fun hq hm => ?_, ?_⟩
    · rw [if_pos ⟨(hfresh .p1).2.trans hq, hm⟩] at hview
      have hgrows := State.completeOpen_grows (Conditions.Grows.refl (s.edgeCorrected.completeOpen .p1).cond) .p2
      obtain ⟨ha, hb⟩ := State.views_of_raised hview
      exact Prod.ext (hgrows.views .a 13 ha) (hgrows.views .b 13 hb)
    · rw [hport, ← hlive, ← (hfresh .p1).2, ← hexits]
      exact (s.edgeCorrected.completeOpen .p1).completeOpen_live_of_ne .p2 (by decide)
  | p2 =>
    have hother : (s.edgeCorrected.completeOpen .p1).port .p2 = s.edgeCorrected.port .p2 :=
      (s.edgeCorrected.completeOpen_port .p1).2
    obtain ⟨hview, hexits⟩ := State.completeOpen_one_cond (s := s.edgeCorrected.completeOpen .p1) (p := .p2)
      (by rw [hother]; exact hone)
    rw [hother, (hfresh .p2).2] at hview hexits
    refine ⟨fun hq hm => ?_, ?_⟩
    · refine hview.trans (if_pos ⟨hq, ?_⟩)
      simpa [State.mismatch] using hm
    · have hfirst : (s.edgeCorrected.completeOpen .p1).cond.live[(refDisqualify .p2).id] =
          s.cond.live[(refDisqualify .p2).id] :=
        (s.edgeCorrected.completeOpen_live_of_ne .p1 (by decide)).trans (hlive .p2)
      rw [hfirst] at hexits
      exact hexits

theorem State.edgeLeft_mismatch {s : State} {p : Port} (h : (s.port p).openPulses ≠ [])
    (hx : s.edgeEvaluated.views 13 = (true, true)) : s.edgeLeft.views 13 = (true, true) := by
  have hcond : s.edgeBegun.cond =
      (s.edgeCorrected.slewOnEntry (s.edgeCorrected.portsMoved s.edgeEvaluated) s.edgeFound.hasOpen).cond := by
    rw [State.edgeBegun_concluded h]
    simp [State.concluded, State.markBegun]
  have hbegun : s.edgeEvaluated.cond.Grows s.edgeBegun.cond := by
    rw [hcond]
    exact State.slewOnEntry_grows (State.portsMoved_grows (Conditions.Grows.refl _) _) _ _
  have hgrows := State.edgeFinished_grows hbegun
  obtain ⟨ha, hb⟩ := State.views_of_raised hx
  exact Prod.ext (State.settle_views_grow _ .a 13 (hgrows.views .a 13 ha))
    (State.settle_views_grow _ .b 13 (hgrows.views .b 13 hb))

/-- The exits counted where a pulse waited. -/
theorem State.edgeBegun_live {s : State} {p : Port} (h : (s.port p).openPulses ≠ []) :
    s.edgeBegun.cond.live[(refDisqualify p).id] = s.edgeEvaluated.cond.live[(refDisqualify p).id] := by
  rw [State.edgeBegun_concluded h, ← State.concluded_live s.edgeCorrected s.edgeEvaluated s.edgeFound.hasOpen p]
  simp [State.markBegun]

/-! ## The port -/

section

variable {s : State} {p : Port} {u : OpenPulse}

/-- The port as its one pulse's evaluation finds it. -/
def RefPort.taken (r : RefPort) : RefPort := { r.freshEdge with openPulses := [] }

/-- The offset of a pulse that waited. -/
def State.offsetAtEdge (s : State) (u : OpenPulse) : Int := ((max s.now s.tb.due : Nat) : Int) - (u.at_ : Int)

theorem State.edgeEvaluated_port (h : (s.port p).openPulses = [u]) : s.edgeEvaluated.port p =
    ({ (s.port p).taken with lastOffset := s.offsetAtEdge u, edgeOffset := some (s.offsetAtEdge u) } :
      RefPort).judge s.edgeCorrected.params u (s.edgeCorrected.mismatch u.label) := by
  obtain ⟨-, -, -, -, htime, -, -⟩ := s.edgeCorrected_frame
  simp only [Prod.mk.injEq] at htime
  have hopen : (s.port p).freshEdge.openPulses = [u] := h
  have ho : s.edgeCorrected.offsetOf u.at_ = s.offsetAtEdge u := by
    rw [State.offsetOf, htime.2.2.2.1]
    rfl
  rw [s.edgeEvaluated_frame.1 p, State.evaluatedAll, hopen, List.foldl_cons, List.foldl_nil, State.evaluated, ho]
  rfl

/-- No pulse of the other port waited. -/
theorem State.edgeEvaluated_evaluates (h : (s.port p).openPulses = [u])
    (hother : (s.port p.other).openPulses = []) :
    s.edgeCorrected.Evaluates s.edgeEvaluated p u (s.offsetAtEdge u) (s.port p).taken := by
  obtain ⟨hports, hsel, hparams, hkey, -, hviews, -⟩ := s.edgeCorrected_frame
  obtain ⟨heval, hrest, hview⟩ := s.edgeEvaluated_frame
  refine ⟨State.edgeEvaluated_port h, by rw [hports]; rfl, ?_, hrest, hview.trans (hviews 15).symm⟩
  have hopen : (s.port p.other).freshEdge.openPulses = [] := hother
  rw [heval, hports, State.evaluatedAll, hopen, List.foldl_nil, ← hopen]

theorem State.edgeCorrected_sightOf (s : State) (p : Port) : s.sightOf p = s.edgeCorrected.sightOf p := by
  obtain ⟨hports, hsel, hparams, hkey, htime, hviews, -⟩ := s.edgeCorrected_frame
  simp only [Prod.mk.injEq] at htime
  simp only [State.sightOf, hports, hsel, hparams, hkey, htime.2.2.2.2, hviews]
  rfl

theorem State.edgeLeft_outlives (h : (s.port p).openPulses ≠ []) :
    (s.edgeCorrected.concluded s.edgeEvaluated s.edgeFound.hasOpen).Outlives s.edgeLeft := by
  rw [State.edgeLeft, State.edgeBegun_concluded h]
  exact State.marked_outlives _

theorem State.edgeLeft_sel (h : (s.port p).openPulses ≠ []) :
    s.edgeLeft.sel = (s.edgeCorrected.concluded s.edgeEvaluated s.edgeFound.hasOpen).sel := by
  have hkept : s.edgeLeft.sel = s.edgeBegun.sel := s.edgeBegun.edgeFinished_frame.2.2.2.2.2.2.2.1
  rw [hkept, State.edgeBegun_concluded h]
  simp

theorem State.edgeConcluded_mode (s : State) (known : Port → Bool) : s.edgeCorrected.key.nearTimeCode = false →
    (s.edgeCorrected.concluded s.edgeEvaluated known).key.mode ≠ .timeCode := by
  have hrest := s.edgeEvaluated_frame.2.1
  simp only [Prod.mk.injEq] at hrest
  rw [State.concluded_key, hrest.2.2.2]
  exact Keyer.not_timeCode_of_not_near

theorem State.edgeFound_hasOpen (h : (s.port p).openPulses = [u]) : s.edgeFound.hasOpen p = true := by
  have hfresh : (s.edgeFound.port p).openPulses = (s.port p).openPulses := by cases p <;> rfl
  simp [State.hasOpen, hfresh, h]

theorem State.correctOpen_unlocked {q : Port} (h : s.tb.disc ≠ .locked ∨ s.sel.selection ≠ some q) :
    s.correctOpen q = s :=
  foldl_keeps (P := fun t => t = s)
    (fun t u ht => by
      rw [ht]
      exact State.correct_idle _ fun hc => h.elim (fun hd => hd hc.1) fun hs => hs hc.2.1) _ _ rfl

/-- Where LOCKED is entered at the edge no pulse has corrected the second that it begins. -/
theorem State.edgeCorrected_second (hother : (s.port p.other).openPulses = [])
    (ho : (s.sel.mode = .auto ∧ s.sel.selection = none) ∨ s.tb.disc ≠ .locked) :
    s.edgeCorrected.tb.length = 10000000 + trimShare s.edgeLeft.tb.trim s.tb.k ∧ s.edgeCorrected.tb.corr = 0 := by
  obtain ⟨hdisc, -, -, -, -, -, -, hlength⟩ := s.tb.edge_counted_keeps (max s.now s.tb.due)
  have hidle (q : Port) : s.edgeFound.correctOpen q = s.edgeFound := by
    rcases Port.eq_or_other p q with rfl | rfl
    · exact State.correctOpen_unlocked (ho.symm.imp (fun hd => by rwa [State.edgeFound_tb, hdisc]) fun hc => by
        have hnone : s.edgeFound.sel.selection = none := hc.2
        simp [hnone])
    · exact State.correctOpen_none (by cases p <;> exact hother)
  have hcorrected : s.edgeCorrected = s.edgeFound := by rw [State.edgeCorrected, hidle, hidle]
  obtain ⟨-, -, -, -, -, -, htrim, -⟩ := s.secondEdge_tb
  have htrim : s.edgeLeft.tb.trim = (s.tb.edge .counted (max s.now s.tb.due)).trim := htrim
  rw [hcorrected, State.edgeFound_tb, htrim]
  exact ⟨hlength, rfl⟩

end

end Sys2Proof.Machine

/-! A counted edge by the state of a port whose one pulse waited for it (R48, R49, R54, R58). -/

namespace Sys2Proof.Machine

section

variable {s : State} {p : Port} {u : OpenPulse}

/-- The evaluation leaves the port its offset and no open pulse. -/
theorem State.edgeLeft_offset (h : (s.port p).openPulses = [u]) :
    (s.edgeLeft.port p).lastOffset = s.offsetAtEdge u ∧ (s.edgeLeft.port p).openPulses = [] ∧
      (s.edgeEvaluated.port p).edgeOffset = some (s.offsetAtEdge u) := by
  obtain ⟨b, hb⟩ := s.edgeLeft_port p
  rw [hb, State.edgeEvaluated_port h]
  obtain ⟨hopen, hlast, hedge, -⟩ := RefPort.judge_keeps
    { (s.port p).taken with lastOffset := s.offsetAtEdge u, edgeOffset := some (s.offsetAtEdge u) }
    s.edgeCorrected.params u (s.edgeCorrected.mismatch u.label)
  exact ⟨hlast, hopen, hedge⟩

/-- What a counted edge makes of a CANDIDATE by its one pulse. -/
theorem State.edgeLeft_candidate (h : (s.port p).openPulses = [u]) (hr : (s.port p).st = .candidate) :
    let t := s.edgeLeft
    let good := u.Good (s.edgeCorrected.mismatch u.label)
    let alone := (s.port p.other).openPulses = []
    (¬good → (t.port p).st = .candidate ∧ (t.port p).goodRun = 0 ∧ (alone → t.sel = s.sel)) ∧
      (good → (s.port p).goodRun + 1 < s.params.qualCount → (t.port p).st = .candidate ∧
        (t.port p).goodRun = (s.port p).goodRun + 1 ∧ (alone → t.sel = s.sel)) ∧
      (good → s.params.qualCount ≤ (s.port p).goodRun + 1 → (t.port p).st = .qualified ∧
        ((t.port p).goodRun, (t.port p).irregRun, (t.port p).unlabRun) = (0, 0, 0) ∧
        (alone → s.GainsPort t p (s.offsetAtEdge u) (10000000 + trimShare t.tb.trim s.tb.k) 0)) := by
  have hopen : (s.port p).openPulses ≠ [] := by simp [h]
  have hst : (s.port p).taken.st = .candidate := hr
  obtain ⟨-, hsel, hparams, -, -, -, -⟩ := s.edgeCorrected_frame
  have hjudge := State.edgeEvaluated_port h
  rw [hparams] at hjudge
  obtain ⟨b, hb⟩ := s.edgeLeft_port p
  have hstays (hx : (s.edgeEvaluated.port p).st = .candidate) (ha : (s.port p.other).openPulses = []) :
      s.edgeLeft.sel = s.sel := by
    rw [State.edgeLeft_sel hopen]
    exact ((State.edgeEvaluated_evaluates h ha).keeps_sel (iff_of_false (by simp [hx]) (by simp [hst]))
      (.inl (by simp [hx]))).trans hsel
  intro t good alone
  have hport : t.port p = { s.edgeEvaluated.port p with leapDis := b } := hb
  rw [hport]
  refine ⟨fun hg => ?_, fun hg hn => ?_, fun hg hn => ?_⟩
  · replace hjudge := hjudge.trans (RefPort.judge_ended (by exact hst) hg)
    have hafter : (s.edgeEvaluated.port p).st = .candidate := by rw [hjudge]; exact hst
    exact ⟨hafter, by rw [hjudge], hstays hafter⟩
  · replace hjudge := hjudge.trans (RefPort.judge_grows (by exact hst) hg (by exact hn))
    have hafter : (s.edgeEvaluated.port p).st = .candidate := by rw [hjudge]; exact hst
    exact ⟨hafter, by rw [hjudge]; rfl, hstays hafter⟩
  · replace hjudge := hjudge.trans (RefPort.judge_qualifies (by exact hst) hg (by exact hn))
    have hafter : (s.edgeEvaluated.port p).st = .qualified := by rw [hjudge]; rfl
    refine ⟨hafter, by rw [hjudge]; rfl, fun ha => ?_⟩
    have hgains := (State.edgeEvaluated_evaluates h ha).gains (known := s.edgeFound.hasOpen) (by simp [hst]) hafter
      (State.edgeFound_hasOpen h)
    have hlater := (hgains.outlived (s.edgeConcluded_mode _) (State.edgeLeft_outlives hopen)).seen
      (s.edgeCorrected_sightOf p)
    refine hlater.of_second fun ho => ?_
    obtain ⟨hlength, hcorr⟩ := State.edgeCorrected_second ha ho
    exact ⟨hlength.symm, hcorr.symm⟩

/-- What a counted edge makes of a QUALIFIED port by its one pulse. -/
theorem State.edgeLeft_qualified (h : (s.port p).openPulses = [u]) (hr : (s.port p).st = .qualified) :
    let t := s.edgeLeft
    let lost := (s.port p).Lost s.params u (s.edgeCorrected.mismatch u.label)
    let alone := (s.port p.other).openPulses = []
    (lost → (t.port p).st = .candidate ∧
        ((t.port p).goodRun, (t.port p).irregRun, (t.port p).unlabRun) = (0, 0, 0) ∧
        s.edgeBegun.cond.live[(refDisqualify p).id] =
          min counterMax (s.cond.live[(refDisqualify p).id] + 1) ∧ t.sel.disagree = false ∧
        (alone → s.LosesPort t p)) ∧
      (¬lost → (t.port p).st = .qualified ∧
        ((t.port p).irregRun, (t.port p).unlabRun) = ((s.port p).irregAfter u, (s.port p).unlabAfter u) ∧
        s.edgeBegun.cond.live[(refDisqualify p).id] = s.cond.live[(refDisqualify p).id] ∧
        (alone → t.sel = s.sel)) := by
  have hopen : (s.port p).openPulses ≠ [] := by simp [h]
  have hst : (s.port p).taken.st = .qualified := hr
  obtain ⟨hports, hsel, hparams, -, -, -, -⟩ := s.edgeCorrected_frame
  obtain ⟨-, hlive⟩ := State.edgeEvaluated_cond h
  rw [← State.edgeBegun_live hopen] at hlive
  have hjudge := State.edgeEvaluated_port h
  rw [hparams] at hjudge
  obtain ⟨b, hb⟩ := s.edgeLeft_port p
  intro t lost alone
  have hport : t.port p = { s.edgeEvaluated.port p with leapDis := b } := hb
  rw [hport]
  refine ⟨fun hl => ?_, fun hl => ?_⟩
  · replace hjudge := hjudge.trans (RefPort.judge_lost (by exact hst) (by exact hl))
    have hafter : (s.edgeEvaluated.port p).st = .candidate := by rw [hjudge]; rfl
    refine ⟨hafter, by rw [hjudge]; rfl, hlive.trans (if_pos ⟨hr, by simp [hafter]⟩), ?_, fun ha => ?_⟩
    · have hleft : s.edgeCorrected.leftQualified s.edgeEvaluated p = true := by
        simp [State.leftQualified, State.qualified, hports, RefPort.freshEdge, hr, hafter]
      have hkept : t.sel = _ := State.edgeLeft_sel hopen
      rw [hkept, State.concluded, State.judgeAgreement_idle (p := p) (.inl (by
        rw [State.slewOnEntry_port, State.portsMoved_port, hafter]; decide))]
      have hmoved := congrArg Selector.disagree (s.edgeCorrected.portsMoved_sel s.edgeEvaluated)
      simpa using hmoved.trans (State.clearDisagree_left hleft)
    · obtain ⟨hloses, -⟩ := (State.edgeEvaluated_evaluates h ha).loses (known := s.edgeFound.hasOpen) hst
        (by simp [hafter])
      exact (hloses.upheld (s.edgeConcluded_mode _) (State.edgeLeft_outlives hopen).toUpholds).seen
        (s.edgeCorrected_sightOf p)
  · replace hjudge := hjudge.trans (RefPort.judge_kept (by exact hst) (by exact hl))
    have hafter : (s.edgeEvaluated.port p).st = .qualified := by rw [hjudge]; exact hst
    refine ⟨hafter, by rw [hjudge]; rfl, hlive.trans (if_neg (by simp [hafter])), fun ha => ?_⟩
    have hkept : t.sel = _ := State.edgeLeft_sel hopen
    rw [hkept]
    exact ((State.edgeEvaluated_evaluates h ha).keeps_sel (iff_of_true hafter hst)
      (.inr (.inr (by rw [hports]; rfl)))).trans hsel

/-- Both ports' pulses that waited are judged by their difference. -/
theorem State.edgeLeft_judged {v : OpenPulse} (h : (s.port p).openPulses = [u])
    (hv : (s.port p.other).openPulses = [v]) (hp : (s.edgeLeft.port p).st = .qualified)
    (ho : (s.edgeLeft.port p.other).st = .qualified) :
    let d := ((u.at_ : Int) - (v.at_ : Int)).natAbs
    s.edgeLeft.sel.diff = some d ∧ s.edgeLeft.sel.disagree = decide (s.params.refAgree < d) := by
  have hopen : (s.port p).openPulses ≠ [] := by simp [h]
  obtain ⟨b, hb⟩ := s.edgeLeft_port p
  obtain ⟨b', hb'⟩ := s.edgeLeft_port p.other
  rw [hb] at hp
  rw [hb'] at ho
  have hports (q : Port) : (s.edgeCorrected.slewOnEntry (s.edgeCorrected.portsMoved s.edgeEvaluated)
      s.edgeFound.hasOpen).port q = s.edgeEvaluated.port q := by
    rw [State.slewOnEntry_port, State.portsMoved_port]
  have hparams : (s.edgeCorrected.slewOnEntry (s.edgeCorrected.portsMoved s.edgeEvaluated)
      s.edgeFound.hasOpen).params = s.params := by
    have hrest := s.edgeEvaluated_frame.2.1
    simp only [Prod.mk.injEq] at hrest
    simp [hrest.2.2.1, s.edgeCorrected_frame.2.2.1]
  have hjudged := State.judgeAgreement_sel (p := p) (by rw [hports]; exact hp) (by rw [hports]; exact ho)
    (by rw [hports]; exact (State.edgeLeft_offset h).2.2) (by rw [hports]; exact (State.edgeLeft_offset hv).2.2)
  have hdiff : (s.offsetAtEdge u - s.offsetAtEdge v).natAbs = ((u.at_ : Int) - (v.at_ : Int)).natAbs := by
    unfold State.offsetAtEdge
    omega
  rw [hdiff, hparams] at hjudged
  have hsel : s.edgeLeft.sel = _ := (State.edgeLeft_sel hopen).trans hjudged
  rw [hsel]
  exact ⟨rfl, rfl⟩

/-- A port is QUALIFIED after the edge exactly if its evaluations leave it so. -/
theorem State.edgeLeft_st (s : State) (q : Port) : (s.edgeLeft.port q).st = (s.edgeEvaluated.port q).st := by
  obtain ⟨b, hb⟩ := s.edgeLeft_port q
  rw [hb]

/-- The selection that a counted edge leaves, by the ports before it and after it. -/
theorem State.edgeLeft_selects (s : State) :
    let gains := fun p : Port => (s.port p).st ≠ .qualified ∧ (s.edgeLeft.port p).st = .qualified
    (s.sel.mode = .manual → s.edgeLeft.sel.selection = s.sel.selection) ∧
      (s.sel.mode = .auto → s.sel.selection = none →
        s.edgeLeft.sel.selection = if gains .p1 then some .p1 else if gains .p2 then some .p2 else none) ∧
      (∀ p, s.sel.mode = .auto → s.sel.selection = some p → (s.port p).st = .qualified →
        s.edgeLeft.sel.selection = if (s.edgeLeft.port p).st = .qualified then some p
          else if (s.edgeLeft.port p.other).st = .qualified then some p.other else none) := by
  obtain ⟨hselection, -⟩ := s.edgeLeft_selection
  have hsel : s.edgeEvaluated.sel = s.sel := by
    have hrest := s.edgeEvaluated_frame.2.1
    simp only [Prod.mk.injEq] at hrest
    exact hrest.2.1.trans s.edgeCorrected_frame.2.1
  have hbefore (q : Port) : s.edgeCorrected.qualified q = decide ((s.port q).st = .qualified) := by
    rw [State.qualified, s.edgeCorrected_frame.1]
    rfl
  have hafter (q : Port) : s.edgeEvaluated.qualified q = decide ((s.edgeLeft.port q).st = .qualified) := by
    rw [State.qualified, State.edgeLeft_st]
  intro gains
  rw [hselection]
  refine ⟨fun hm => ?_, fun hm hn => ?_, fun p hm hs hq => ?_⟩
  · simp [State.autoSelection, hsel, hm]
  · have hgains (q : Port) : s.edgeCorrected.becameQualified s.edgeEvaluated q = true ↔ gains q := by
      rw [State.becameQualified, hbefore, hafter, Bool.and_eq_true, Bool.not_eq_true', decide_eq_false_iff_not,
        decide_eq_true_eq]
    simp only [State.autoSelection, hsel, hm, hn]
    exact if_congr (hgains .p1) rfl (if_congr (hgains .p2) rfl rfl)
  · simp only [State.autoSelection, hsel, hm, hs, State.leftQualified, hbefore, hafter, hq]
    by_cases hp : (s.edgeLeft.port p).st = .qualified <;> simp [hp]

end

end Sys2Proof.Machine

/-! The evaluation of pulses, at the pulse and at the edge (R47..R50, R53..R55, R58, R59). -/

namespace Sys2Proof.Machine

section

variable {s : State} {p : Port} {u : OpenPulse} {dt : Nat}

/-- A mismatch is a label that is not the second begun by the pulse's edge. -/
theorem State.mismatch_true {label : Option Label} : s.mismatch label = true ↔
    ¬(s.tb.timeSet = true → ∀ x, label = some x → (x.day, x.sec) = (s.tb.day, s.tb.sec)) := by
  rw [← State.mismatch_iff, Bool.not_eq_false]

/-- The pulse that the port takes now makes a good second. -/
theorem State.pulseIn_good : (s.pulseIn p dt).Good (s.mismatch (s.port p).waiting) ↔
    (s.port p).waiting.isSome = true ∧
      (s.tb.timeSet = true → ∀ x, (s.port p).waiting = some x → (x.day, x.sec) = (s.tb.day, s.tb.sec)) ∧
      ∃ last, (s.port p).lastPulse = some last ∧ regularSince s.params.qualWindow (s.now + dt) last := by
  rw [← State.mismatch_iff, ← RefPort.intervalAt_regular]
  exact ⟨fun ⟨hi, hl, hb⟩ => ⟨hl, hb, hi⟩, fun ⟨hl, hb, hi⟩ => ⟨hi, hl, hb⟩⟩

theorem RefPort.unlabAfter_pulse {r : RefPort} (hst : r.st ≠ .absent) (window now : Nat) :
    (r.pulse window now).unlabAfter (r.openPulse window now) =
      if r.waiting = none then r.unlabRun + 1 else 0 := by
  have hkeeps := (r.pulse_keeps window now).2.2.2 hst
  simp only [Prod.mk.injEq] at hkeeps
  rw [RefPort.unlabAfter, hkeeps.2.2]
  rfl

/-- The pulse that a QUALIFIED port takes now makes it a CANDIDATE. -/
theorem State.pulseIn_lost (hst : (s.port p).st ≠ .absent) :
    ((s.port p).pulse s.params.qualWindow (s.now + dt)).Lost s.params (s.pulseIn p dt)
        (s.mismatch (s.port p).waiting) ↔
      ¬(s.tb.timeSet = true → ∀ x, (s.port p).waiting = some x → (x.day, x.sec) = (s.tb.day, s.tb.sec)) ∨
      ((∃ last, (s.port p).lastPulse = some last ∧ ¬regularSince s.params.qualWindow (s.now + dt) last) ∧
        s.params.disqCount ≤
          ((s.port p).pulse s.params.qualWindow (s.now + dt)).irregAfter (s.pulseIn p dt)) ∨
      3 ≤ if (s.port p).waiting = none then (s.port p).unlabRun + 1 else 0 := by
  rw [← State.mismatch_true, ← RefPort.intervalAt_irregular, ← RefPort.unlabAfter_pulse hst s.params.qualWindow
    (s.now + dt)]
  rfl

/-- The mismatch of a pulse that waited, by the time that the edge leaves. -/
theorem State.edgeCorrected_right (s : State) (u : OpenPulse) : s.edgeCorrected.mismatch u.label = false ↔
    (s.edgeLeft.tb.timeSet = true →
      ∀ x, u.label = some x → (x.day, x.sec) = (s.edgeLeft.tb.day, s.edgeLeft.tb.sec)) := by
  obtain ⟨-, -, -, -, htime, -, -⟩ := s.edgeCorrected_frame
  simp only [Prod.mk.injEq] at htime
  obtain ⟨hset, hday, hsec, -⟩ := s.secondEdge_tb
  rw [State.mismatch_iff, htime.1, htime.2.1, htime.2.2.1, ← hset, ← hday, ← hsec]
  rfl

theorem State.edgeLeft_offsetAtEdge (s : State) (u : OpenPulse) :
    (s.edgeLeft.tb.edgeAt : Int) - (u.at_ : Int) = s.offsetAtEdge u := by
  obtain ⟨-, -, -, -, -, -, -, -, -, hedge, -⟩ := s.secondEdge_tb
  have hat : s.edgeLeft.tb.edgeAt = max s.now s.tb.due :=
    hedge.trans (s.tb.edge_begun .counted (max s.now s.tb.due)).1
  rw [hat]
  rfl

end

end Sys2Proof.Machine

namespace Sys2Proof

open Sys2Proof.Machine

/-- Settles O31: the evaluation of a pulse by the port's state, at the pulse and at the edge it waited for; the
selection that an edge leaves; the leap warning check. -/
theorem pulseEvaluationMovesThePort : Obligations.PulseEvaluationMovesThePort := by
  refine ⟨fun p dt s hp hmade hfrom hto hno => ?now, fun p u s hp hw hu => ?edge, fun s hp hw => ?selection,
    fun s w hleap => ?leap⟩
  case now =>
    intro r o regular right good irregRun unlabRun irregular lost d
    have hexec (hst : r.st ≠ .disabled) : exec (.refPulse p dt) s = .next (s.pulsePaired p dt) :=
      State.exec_refPulse_pairs hp hst hmade hfrom hto hno
    obtain ⟨hoffset, htime⟩ := s.pulsePaired_time p dt
    refine ⟨fun hr => ?_, fun hr => ?_⟩
    · obtain ⟨hended, hgrows, hqualifies⟩ := State.pulsePaired_candidate (dt := dt) hr
      rw [State.pulseIn_good] at hended hgrows hqualifies
      exact ⟨_, hexec (by simp [hr]), hoffset, htime, hended, hgrows, hqualifies⟩
    · have hna : r.st ≠ .absent := by simp [hr]
      obtain ⟨hview, hlost, hkept⟩ := State.pulsePaired_qualified (dt := dt) hr
      have hirreg : (r.pulse s.params.qualWindow (s.now + dt)).irregAfter (s.pulseIn p dt) = irregRun :=
        RefPort.irregAfter_pulse hna
      have hunlab : (r.pulse s.params.qualWindow (s.now + dt)).unlabAfter (s.pulseIn p dt) = unlabRun :=
        RefPort.unlabAfter_pulse hna _ _
      have hleaves := State.pulseIn_lost (dt := dt) hna
      rw [hleaves] at hlost hkept
      rw [hirreg] at hlost hkept
      rw [hunlab] at hkept
      refine ⟨_, hexec (by simp [hr]), hoffset, fun hn => ?_, fun hy => ?_, hlost, fun hl => ?_⟩
      · exact State.views_of_raised (hview.trans (if_pos (State.mismatch_true.mpr hn)))
      · exact hview.trans (if_neg (by rw [State.mismatch_iff.mpr hy]; decide))
      · obtain ⟨hst, hruns, hlive, hselection, hjudged, hsame⟩ := hkept hl
        refine ⟨hst, hruns, hlive, hselection, fun hq hs => ?_, hsame⟩
        obtain ⟨o', ho'⟩ := Option.isSome_iff_exists.mp hs
        have hd : d = (o - o').natAbs := by simp only [d, ho', Option.getD_some]
        rw [hjudged hq o' ho', hd]
        exact ⟨rfl, rfl⟩
  case edge =>
    refine ⟨s.edgeLeft, State.exec_secondEdge hp hw, ?_⟩
    intro r o right good irregRun unlabRun lost alone exits
    have ho : o = s.offsetAtEdge u := s.edgeLeft_offsetAtEdge u
    have hright : s.edgeCorrected.mismatch u.label = false ↔ right := s.edgeCorrected_right u
    have hwrong : s.edgeCorrected.mismatch u.label = true ↔ ¬right := by rw [← hright, Bool.not_eq_false]
    have hgood : u.Good (s.edgeCorrected.mismatch u.label) ↔ good :=
      ⟨fun ⟨hi, hl, hb⟩ => ⟨hl, hright.mp hb, hi⟩, fun ⟨hl, hb, hi⟩ => ⟨hi, hl, hright.mpr hb⟩⟩
    have hlost : r.Lost s.params u (s.edgeCorrected.mismatch u.label) ↔ lost := or_congr hwrong Iff.rfl
    obtain ⟨hoffset, hopen, -⟩ := State.edgeLeft_offset hu
    obtain ⟨hview, hlive⟩ := State.edgeEvaluated_cond hu
    have hwaited : (s.port p).openPulses ≠ [] := by simp [hu]
    rw [← State.edgeBegun_live hwaited] at hlive
    rw [ho]
    refine ⟨hoffset, hopen, fun hr => hlive.trans (if_neg fun hc => hr hc.1), fun hr => ?_, fun hr => ?_,
      fun v hv hq hq' => State.edgeLeft_judged hu hv hq hq'⟩
    · obtain ⟨hended, hgrows, hqualifies⟩ := State.edgeLeft_candidate hu hr
      rw [hgood] at hended hgrows hqualifies
      exact ⟨hended, hgrows, hqualifies⟩
    · obtain ⟨hleaves, hkept⟩ := State.edgeLeft_qualified hu hr
      rw [hlost] at hleaves hkept
      exact ⟨fun hn => State.views_of_raised (State.edgeLeft_mismatch hwaited (hview hr (hwrong.mpr hn))), hleaves, hkept⟩
  case selection =>
    obtain ⟨hmanual, hnone, hsome⟩ := s.edgeLeft_selects
    obtain ⟨hselection, hview⟩ := s.edgeLeft_selection
    rw [← hselection] at hview
    exact ⟨s.edgeLeft, State.exec_secondEdge hp hw, hmanual, hnone, hsome,
      fun hne => State.views_of_raised (hview.trans (if_pos (Ne.symm hne))),
      fun he => ⟨he, hview.trans (if_neg (by simp [he]))⟩⟩
  case leap =>
    intro off hlast
    have hw : w = s.scheduledLeap := by
      rcases hleap with ⟨rfl, hnone⟩ | ⟨before, x, after, he, hx, hb, rfl⟩
      · exact (State.scheduledLeap_none hnone).symm
      · exact (State.scheduledLeap_first he hx hb).symm
    have hoff (p : Port) : s.leapDisagrees p = true ↔ off p := by
      rw [State.leapDisagrees_iff (hlast p), State.OffLeap, ← hw]
    obtain ⟨hraised, hquiet⟩ := s.leapCheck_cond
    simp only [hoff] at hraised hquiet
    refine ⟨fun p => ?_, fun h => State.views_of_raised (hraised h), hquiet⟩
    rw [State.leapCheck_leapDis, hoff]

end Sys2Proof
